-- ==== Sys2Proof/Word.lean ====
section
/-! DEFINITION. The word types of POU-PB: the u8, u16, 32-bit register and 48-bit command words of the spec
(`10_state.md` rules R21 to R26, `30_encoding.md` rule R80). -/

namespace Sys2Proof

/-- A u8 element or operand. -/
abbrev U8 := BitVec 8

/-- A u16 element, or the bit pattern of an i16 element (read as a signed number by `BitVec.toInt`). -/
abbrev U16 := BitVec 16

/-- A 32-bit register value, response or operand; also the bit pattern of a binary32 value (rule R93). -/
abbrev Word := BitVec 32

/-- The 48-bit command word `cmd[47:0]` (rule R80). -/
abbrev Command := BitVec 48

end Sys2Proof
end

