-- ==== Sys2Proof/Syntax.lean ====
section
/-! DEFINITION. The sixteen operations of POU-PB, one constructor per row of the opcode table (`30_encoding.md`
rules R81 and R82). An operand `a` is the 8-bit field, an operand `v` the 32-bit field, both as they stand
(rule R81). -/

namespace Sys2Proof

/-- One operation ("instruction", rule R8), in the order of the opcode map. -/
inductive Instr where
  | nop
  | rdreg (a : U8)
  | wrreg (a : U8) (v : Word)
  | sreset
  | freport (c : U8)
  | fclear (c : U8)
  | fexists (c : U8)
  | fcount
  | thchk (ch : U8)
  | zcedge
  | xcross
  | setduty (d : U8)
  | setforce (d : U8)
  | clrforce
  | ctrl
  | tick
  deriving DecidableEq, Repr

end Sys2Proof
end

