-- ==== Sys2Proof/Decode.lean ====
section
/-! DEFINITION. The command word `{op, a, v}`, its decoder and its encoder (`30_encoding.md` rules R80 to R83). -/

namespace Sys2Proof

/-- Why a word is no operation (rule R83 (a) and (b)). The machine answers all three in the same way, with a
refused response. -/
inductive Reject where
  /-- `op` is not in the opcode map. -/
  | unknownOp (op : U8)
  /-- the `a` field of a format Z operation is not zero. -/
  | nonzeroA
  /-- the `v` field of a format Z or A operation is not zero. -/
  | nonzeroV
  deriving DecidableEq, Repr

/-- Bits 47:40 of a command word (rule R80). -/
def opField (w : Command) : U8 := w.extractLsb' 40 8

/-- Bits 39:32 of a command word (rule R80). -/
def aField (w : Command) : U8 := w.extractLsb' 32 8

/-- Bits 31:0 of a command word (rule R80). -/
def vField (w : Command) : Word := w.extractLsb' 0 32

/-- Format Z: `a` and `v` must be zero (rule R81). -/
def formatZ (i : Instr) (w : Command) : Except Reject Instr :=
  if aField w ≠ 0 then .error .nonzeroA
  else if vField w ≠ 0 then .error .nonzeroV
  else .ok i

/-- Format A: `a` is the operand, `v` must be zero (rule R81). -/
def formatA (f : U8 → Instr) (w : Command) : Except Reject Instr :=
  if vField w ≠ 0 then .error .nonzeroV else .ok (f (aField w))

/-- Format AV: both fields are operands (rule R81). -/
def formatAV (f : U8 → Word → Instr) (w : Command) : Except Reject Instr :=
  .ok (f (aField w) (vField w))

/-- The operation a command word stands for: the opcode map of rule R82. -/
def decode (w : Command) : Except Reject Instr :=
  match (opField w).toNat with
  | 0x00 => formatZ .nop w
  | 0x01 => formatA .rdreg w
  | 0x02 => formatAV .wrreg w
  | 0x03 => formatZ .sreset w
  | 0x10 => formatA .freport w
  | 0x11 => formatA .fclear w
  | 0x12 => formatA .fexists w
  | 0x13 => formatZ .fcount w
  | 0x18 => formatA .thchk w
  | 0x20 => formatZ .zcedge w
  | 0x21 => formatZ .xcross w
  | 0x22 => formatA .setduty w
  | 0x23 => formatA .setforce w
  | 0x24 => formatZ .clrforce w
  | 0x30 => formatZ .ctrl w
  | 0x40 => formatZ .tick w
  | _ => .error (.unknownOp (opField w))

/-- `{op, a, v}` (rule R80). -/
def commandWord (op a : U8) (v : Word) : Command := op ++ a ++ v

/-- The command word of an operation (rules R80 to R82). -/
def encode : Instr → Command
  | .nop => commandWord 0x00 0 0
  | .rdreg a => commandWord 0x01 a 0
  | .wrreg a v => commandWord 0x02 a v
  | .sreset => commandWord 0x03 0 0
  | .freport c => commandWord 0x10 c 0
  | .fclear c => commandWord 0x11 c 0
  | .fexists c => commandWord 0x12 c 0
  | .fcount => commandWord 0x13 0 0
  | .thchk ch => commandWord 0x18 ch 0
  | .zcedge => commandWord 0x20 0 0
  | .xcross => commandWord 0x21 0 0
  | .setduty d => commandWord 0x22 d 0
  | .setforce d => commandWord 0x23 d 0
  | .clrforce => commandWord 0x24 0 0
  | .ctrl => commandWord 0x30 0 0
  | .tick => commandWord 0x40 0 0

/-- The command word whose low `nbits` bits are those of `w` and whose other bits are 0. -/
def tableCommand (nbits w : Nat) : Command := BitVec.ofNat 48 (w % 2 ^ nbits)

/-- What the decoder reads from a table row's word; none where it refuses. A row of this table has one 48-bit
word, presented in parallel (rule R62), so there is no byte order to apply. -/
def decodeTableWord (nbits w : Nat) : Option Instr :=
  match decode (tableCommand nbits w) with
  | .ok i => some i
  | .error _ => none

end Sys2Proof
end

