-- ==== Sys2Proof/Config.lean ====
section
/-! DEFINITION. The implementation parameters of `00_scope.md` rule R5. Every definition of the machine takes a
`Params`; the machine itself runs with `Config.params`, in which the parameters the source gives a value for have
that value and every OPEN parameter is an unevaluable constant, free over its legal range. A legal range is carried
by the field's type, so no illegal parameter set can be written. -/

namespace Sys2Proof

/-- The parameters that rule R5 lets vary, each over its legal range. A field named `…Pred` holds the parameter
less one, so that the range starts at 1. -/
structure Params where
  /-- `PATTERN[m][i]` (rule R88). The table has rows and columns 0..8; an entry outside is never looked up in a
  reachable state and is as free as the others. -/
  pattern : Nat → Nat → Bool
  /-- CTRL_PERIOD − 1, CTRL_PERIOD in 1..65535. -/
  ctrlPeriodPred : Fin 65535
  /-- CTRL_DELAY, 0..65535. -/
  ctrlDelay : U16
  /-- FAULT_CAP − 1, FAULT_CAP in 1..16. -/
  faultCapPred : Fin 16
  /-- TH_SET_N − 1, TH_SET_N in 1..255. -/
  thSetPred : Fin 255
  /-- TH_CLR_N − 1, TH_CLR_N in 1..255. -/
  thClrPred : Fin 255
  /-- CONFIRM_N − 1, CONFIRM_N in 1..254 (rule R269). -/
  confirmPred : Fin 254
  /-- PERSIST_N − 1, PERSIST_N in 1..255. -/
  persistPred : Fin 255
  /-- SCALE_EVENT_LIMIT, 0..254. -/
  scaleEventLimit : Fin 255
  /-- SCALE_TEMP_HIGH, an i16. -/
  scaleTempHigh : U16
  /-- DETECT_CYCLES − 1, DETECT_CYCLES in 1..65535. -/
  detectCyclesPred : Fin 65535
  /-- DRYFIRE_RISE_TH, an integer. -/
  dryfireRiseTh : Int
  /-- SHUTDOWN_GRACE, 0..65535. -/
  shutdownGrace : U16
  /-- ERROR_WAIT_DWELL, 0..65535. -/
  errorWaitDwell : U16
  /-- DRYFIRE_DWELL, 0..65535. -/
  dryfireDwell : U16
  /-- TEMPWAIT_DWELL, 0..65535. -/
  tempwaitDwell : U16
  /-- N_MODES − 1, N_MODES in 1..256. -/
  nModesPred : Fin 256
  /-- `CEILING[mode]`, an i16 for every mode; an entry at or above N_MODES is never read in a reachable state. -/
  ceiling : U8 → U16
  /-- STANDBY_DUTY, 0..120. -/
  standbyDuty : Fin 121
  /-- STANDBY_TARGET, an i16. -/
  standbyTarget : U16
  /-- INTEGRAL_LIMIT as a binary32 pattern; a pattern that is a NaN or below zero stands for +0.0
  (`Machine.integralLimit`), so that the limit ranges over exactly the legal values. -/
  integralLimitBits : Word
  /-- PREBURN_ERR, a binary32 pattern. -/
  preburnErr : Word
  /-- PREBURN_RATE, a binary32 pattern. -/
  preburnRate : Word
  /-- PREBURN_BOOST, a binary32 pattern. -/
  preburnBoost : Word
  /-- PREBURN_DAMP, a binary32 pattern. -/
  preburnDamp : Word
  deriving Inhabited

/-- CTRL_PERIOD, in ticks. -/
def Params.ctrlPeriod (P : Params) : Nat := P.ctrlPeriodPred.val + 1

/-- FAULT_CAP, the capacity of the registry. -/
def Params.faultCap (P : Params) : Nat := P.faultCapPred.val + 1

/-- TH_SET_N, evaluations to set a thermistor fault bit. -/
def Params.thSetN (P : Params) : Nat := P.thSetPred.val + 1

/-- TH_CLR_N, evaluations to clear a thermistor fault bit. -/
def Params.thClrN (P : Params) : Nat := P.thClrPred.val + 1

/-- CONFIRM_N, control cycles. -/
def Params.confirmN (P : Params) : Nat := P.confirmPred.val + 1

/-- PERSIST_N, control cycles. -/
def Params.persistN (P : Params) : Nat := P.persistPred.val + 1

/-- DETECT_CYCLES, control cycles. -/
def Params.detectCycles (P : Params) : Nat := P.detectCyclesPred.val + 1

/-- N_MODES, the number of operating modes. -/
def Params.nModes (P : Params) : Nat := P.nModesPred.val + 1

/-- REF_PATTERN (rule R88), used by the vectors of the spec only. -/
def refPattern (m i : Nat) : Bool :=
  if i < 8 then decide ((i * m) / 8 < ((i + 1) * m) / 8) else decide (i = 8 ∧ 5 ≤ m)

/-- The reference parameter set REF of rule R5: what the vectors of the spec use, and no property of the
hardware. No definition of the machine reads it. -/
def Params.ref : Params where
  pattern := refPattern
  ctrlPeriodPred := 499
  ctrlDelay := 0
  faultCapPred := 9
  thSetPred := 4
  thClrPred := 4
  confirmPred := 1
  persistPred := 1
  scaleEventLimit := 3
  scaleTempHigh := 180
  detectCyclesPred := 19
  dryfireRiseTh := 20
  shutdownGrace := 4
  errorWaitDwell := 6
  dryfireDwell := 10
  tempwaitDwell := 4
  nModesPred := 1
  ceiling := fun m => if m = 0 then 120 else 140
  standbyDuty := 15
  standbyTarget := 60
  integralLimitBits := 0x43480000
  preburnErr := 0x41200000
  preburnRate := 0x40000000
  preburnBoost := 0x41A00000
  preburnDamp := 0x40800000

namespace Config

/-- DUTY_MAX (rule R5, source value). -/
def dutyMax : Nat := 120

/-- DUTY_PER_MODE (rule R5, source value). -/
def dutyPerMode : Nat := 15

/-- MODE_MAX (rule R5, source value). -/
def modeMax : Nat := 8

/-- OPEN_TH (rule R120, source value). -/
def openTh : Nat := 900

/-- SHORT_TH (rule R120, source value). -/
def shortTh : Nat := 7506

/-- CLASSB, the non-clearable fault codes (rule R87). -/
def classB : List U8 := [0x01, 0x02, 0x03, 0x04, 0x05, 0x06]

/-- The parameter set of the machine at hand, before the source's own values are put in: nothing is known of it
but the legal ranges its type carries (rule R5: "no rule depends on a particular value"). DESIGN CHOICE, safe (log
entry 1). -/
opaque anyParams : Params

/-- The parameters the machine runs with: the source's values for CTRL_PERIOD (500), SCALE_EVENT_LIMIT (3) and
DETECT_CYCLES (20), every OPEN parameter left free (rule R5). -/
def params : Params :=
  { anyParams with ctrlPeriodPred := 499, scaleEventLimit := 3, detectCyclesPred := 19 }

end Config

end Sys2Proof
end

