-- ==== Sys2Proof/Machine/Arith.lean ====
section
/-! DEFINITION. The integer arithmetic the rules share: saturating increments and the duty cap (`00_scope.md` rule R7,
`42_modulator.md` rules R136 and R137). -/

namespace Sys2Proof.Machine

/-- `sat8(x + 1)`. -/
def sat8Inc (x : U8) : U8 := BitVec.ofNat 8 (min (x.toNat + 1) 255)

/-- `sat16(x + 1)`. -/
def sat16Inc (x : U16) : U16 := BitVec.ofNat 16 (min (x.toNat + 1) 65535)

/-- A saturating confirm counter: `sat8(x + 1)` while the condition holds, 0 otherwise (rule R233). -/
def confirmStep (cond : Bool) (x : U8) : U8 := if cond then sat8Inc x else 0

/-- `if t ≠ 0 then t <- t − 1` (rule R176). -/
def countDown (t : U16) : U16 := if t ≠ 0 then t - 1 else t

/-- `min(d, 120)`: the saturation of a duty operand (rule R136). -/
def capDuty (d : U8) : U8 := BitVec.ofNat 8 (min d.toNat Config.dutyMax)

/-- One bit as a 32-bit response. -/
def bitWord (b : Bool) : Word := if b then 1 else 0

end Sys2Proof.Machine
end

