-- ==== Sys2Proof/Machine/Channels.lean ====
section
/-! DEFINITION. The six thermistor channels and the two TRIAC banks (`30_encoding.md` rule R94), and the plain data
that holds one value per channel or per bank. -/

namespace Sys2Proof.Machine

/-- The channels 0 to 5 of rule R94. -/
inductive Channel where
  | inlet
  | outlet
  | chamber0
  | chamber1
  | chamber2
  | chamber3
  deriving DecidableEq, Repr

/-- The channel numbered `n`, none above 5. -/
def Channel.ofNat? : Nat → Option Channel
  | 0 => some .inlet
  | 1 => some .outlet
  | 2 => some .chamber0
  | 3 => some .chamber1
  | 4 => some .chamber2
  | 5 => some .chamber3
  | _ => none

/-- The number of a channel, 0 to 5. -/
def Channel.toNat : Channel → Nat
  | .inlet => 0
  | .outlet => 1
  | .chamber0 => 2
  | .chamber1 => 3
  | .chamber2 => 4
  | .chamber3 => 5

/-- Every channel, in number order. -/
def Channel.all : List Channel := [.inlet, .outlet, .chamber0, .chamber1, .chamber2, .chamber3]

/-- Chambers 0 to 3: channels 2 to 5 (rule R94). -/
def Channel.chambers : List Channel := [.chamber0, .chamber1, .chamber2, .chamber3]

/-- The two TRIAC banks (rule R94). -/
inductive Bank where
  | bank0
  | bank1
  deriving DecidableEq, Repr

/-- The number of a bank. -/
def Bank.toNat : Bank → Nat
  | .bank0 => 0
  | .bank1 => 1

/-- One value per channel. -/
structure PerChannel (α : Type) where
  inlet : α
  outlet : α
  chamber0 : α
  chamber1 : α
  chamber2 : α
  chamber3 : α
  deriving DecidableEq, Repr

/-- `x[ch]` (rule R7). -/
def PerChannel.get {α : Type} (x : PerChannel α) : Channel → α
  | .inlet => x.inlet
  | .outlet => x.outlet
  | .chamber0 => x.chamber0
  | .chamber1 => x.chamber1
  | .chamber2 => x.chamber2
  | .chamber3 => x.chamber3

/-- `x[ch] <- v` (rule R7). -/
def PerChannel.set {α : Type} (x : PerChannel α) (ch : Channel) (v : α) : PerChannel α :=
  match ch with
  | .inlet => { x with inlet := v }
  | .outlet => { x with outlet := v }
  | .chamber0 => { x with chamber0 := v }
  | .chamber1 => { x with chamber1 := v }
  | .chamber2 => { x with chamber2 := v }
  | .chamber3 => { x with chamber3 := v }

/-- The same value in every channel. -/
def PerChannel.const {α : Type} (v : α) : PerChannel α := ⟨v, v, v, v, v, v⟩

/-- The value `f ch` in every channel ("for each channel ch = 0..5"). -/
def PerChannel.build {α : Type} (f : Channel → α) : PerChannel α :=
  ⟨f .inlet, f .outlet, f .chamber0, f .chamber1, f .chamber2, f .chamber3⟩

/-- One value per bank. -/
structure PerBank (α : Type) where
  bank0 : α
  bank1 : α
  deriving DecidableEq, Repr

/-- `x[b]`. -/
def PerBank.get {α : Type} (x : PerBank α) : Bank → α
  | .bank0 => x.bank0
  | .bank1 => x.bank1

/-- The same value in both banks. -/
def PerBank.const {α : Type} (v : α) : PerBank α := ⟨v, v⟩

/-- The value `f b` in both banks. -/
def PerBank.build {α : Type} (f : Bank → α) : PerBank α := ⟨f .bank0, f .bank1⟩

end Sys2Proof.Machine
end

