-- ==== Sys2Proof/Machine/State.lean ====
section
/-! DEFINITION. The state of POU-PB as plain data: every element of `10_state.md` rules R21 to R26, the settings and
input registers of rules R40 to R47, the response port of rule R89, and the samples of the input pins that the
environment has yet to present (rules R8, R51, R92). One structure per unit, in the order of the rules. -/

namespace Sys2Proof.Machine

/-- The ten operating states, in the order of their codes (rule R84). Codes 10 to 15 cannot be written down
(`93_implementation_defined.md` I9). -/
inductive Status where
  | initial
  | running
  | shutdown
  | standbyCool
  | standbyHeat
  | lowFlow
  | error
  | errorWait
  | dryFireWait
  | tempWait
  deriving DecidableEq, Repr

/-- The chamber configurations, in the order of their codes (rule R85). -/
inductive ChamberCfg where
  | undetected
  | one
  | two
  | four
  deriving DecidableEq, Repr

/-- Phase modulator state (rule R21). -/
structure ModulatorState where
  dutyReq : U8
  forced : Option U8
  fcPending : Bool
  fcEn : Bool
  fcVal : U8
  powerMode : U8
  crossingIndex : U8
  offsetPhase : Bool
  remainder : U8
  opto0 : Bool
  opto1 : Bool
  optoStatus : Bool
  zcPending : Bool
  deriving DecidableEq, Repr

/-- Relay control state (rule R22). `integral` is a binary32 pattern. -/
structure RelayState where
  status : Status
  previousStatus : Status
  integral : Word
  shutdownCounter : U16
  errorWaitCounter : U16
  dryFireWaitTimer : U16
  tempWaitTimer : U16
  relay0 : Bool
  relay1 : Bool
  lowflowSel : Bool
  shutdownFlag : Bool
  deriving DecidableEq, Repr

/-- The history of one channel (rule R23): `t_prev[ch]` (an i16 pattern) and `prev_valid[ch]`. -/
structure ChannelHistory where
  tPrev : U16
  prevValid : Bool
  deriving DecidableEq, Repr

/-- The scale detector of one bank (rule R23): `scale_confirm[b]`, `scale_cnt[b]`, `bank_lock[b]`. -/
structure BankState where
  scaleConfirm : U8
  scaleCnt : U8
  bankLock : Bool
  deriving DecidableEq, Repr

/-- Detector state of the interlocks (rule R23). -/
structure DetectorState where
  cycleCount : U16
  chamberCfg : ChamberCfg
  history : PerChannel ChannelHistory
  dryfireConfirm : U8
  iovConfirm : U8
  revConfirm : U8
  banks : PerBank BankState
  deriving DecidableEq, Repr

/-- One fault bit of one channel and its debounce counter (rule R24). -/
structure FaultBit where
  fault : Bool
  deb : U8
  deriving DecidableEq, Repr

/-- Thermistor check state of one channel (rule R24): `open_fault`, `open_deb` and `short_fault`, `short_deb`. -/
structure ThermistorState where
  openBit : FaultBit
  shortBit : FaultBit
  deriving DecidableEq, Repr

/-- Fault Registry state (rule R25): the codes in order of first report, and the sticky overflow bit. -/
structure RegistryState where
  faults : List U8
  overflow : Bool
  deriving DecidableEq, Repr

/-- The settings registers (rules R40 to R44). `target` is an i16 pattern, the gains binary32 patterns. -/
structure Settings where
  target : U16
  mode : U8
  units : Bool
  standbyEn : Bool
  kp : Word
  ki : Word
  kdRise : Word
  kdFall : Word
  deriving DecidableEq, Repr

/-- IN_TEMP[ch] (rule R46): `temp[ch]` (an i16 pattern) and `detected[ch]`. -/
structure TempInput where
  temp : U16
  detected : Bool
  deriving DecidableEq, Repr

/-- IN_COUNT[ch] (rule R47): `count[ch]` and `pin_high[ch]`. -/
structure CountInput where
  count : U16
  pinHigh : Bool
  deriving DecidableEq, Repr

/-- The collaborator input registers (rules R45 to R47). -/
structure SensorInputs where
  flowPresent : Bool
  flowLow : Bool
  reverseFlow : Bool
  avgDiffErr : Bool
  temps : PerChannel TempInput
  counts : PerChannel CountInput
  deriving DecidableEq, Repr

/-- The response port (rule R89): `rsp_err` and `rsp[31:0]` while `rsp_valid` is 1. -/
structure Response where
  err : Bool
  data : Word
  deriving DecidableEq, Repr

/-- The input pins at one clock edge (rule R51). -/
structure PinSample where
  rstN : Bool
  zcEvt : Bool
  tick1ms : Bool
  cmdValid : Bool
  cmd : Command
  deriving DecidableEq, Repr

/-- The whole state. `pins` is the model's own field: what the environment presents on the input pins at the clock
edges to come, the next one first; an empty list is a block that waits with nothing asserted (rules R9, R66). DESIGN
CHOICE, safe (log entry 3). `rsp` is none while `rsp_valid` is 0. DESIGN CHOICE, unsafe (log entry 5). -/
structure State where
  pm : ModulatorState
  rc : RelayState
  det : DetectorState
  th : PerChannel ThermistorState
  fr : RegistryState
  ctrlCnt : U16
  set : Settings
  inp : SensorInputs
  rsp : Option Response
  pins : List PinSample
  deriving DecidableEq, Repr

/-- The faults that stop the machine: there are none. Every operation completes (rules R8, R205), a refused command
is answered and changes nothing (rule R83), and a fault code in the registry is a state, not a stop (rule R225). -/
inductive Fault where
  deriving DecidableEq, Repr

/-- The refusals that end a step. -/
inductive Refusal where
  /-- Raised by an arm of `exec` for an operation whose meaning is not written yet; safe. No arm raises it. -/
  | notModelled (mnemonic : String)
  deriving DecidableEq, Repr

/-- The code of a status (rule R84). -/
def Status.code : Status → BitVec 4
  | .initial => 0
  | .running => 1
  | .shutdown => 2
  | .standbyCool => 3
  | .standbyHeat => 4
  | .lowFlow => 5
  | .error => 6
  | .errorWait => 7
  | .dryFireWait => 8
  | .tempWait => 9

/-- The code of a chamber configuration (rule R85). -/
def ChamberCfg.code : ChamberCfg → BitVec 2
  | .undetected => 0
  | .one => 1
  | .two => 2
  | .four => 3

/-- The reset value of every state element (rule R55) under the parameters `P`: every output off, every counter,
flag and list empty, `ctrl_cnt` at CTRL_DELAY. -/
def State.resetWith (P : Params) : State where
  pm := ⟨0, none, false, false, 0, 0, 0, false, 0, false, false, false, false⟩
  rc := ⟨.initial, .initial, 0, 0, 0, 0, 0, false, false, false, false⟩
  det := ⟨0, .undetected, .const ⟨0, false⟩, 0, 0, 0, .const ⟨0, 0, false⟩⟩
  th := .const ⟨⟨false, 0⟩, ⟨false, 0⟩⟩
  fr := ⟨[], false⟩
  ctrlCnt := P.ctrlDelay
  set := ⟨0, 0, false, false, 0, 0, 0, 0⟩
  inp := ⟨false, false, false, false, .const ⟨0, false⟩, .const ⟨0, false⟩⟩
  rsp := none
  pins := []

/-- The machine right after reset (rules R55, R250). -/
def State.reset : State := State.resetWith Config.params

end Sys2Proof.Machine
end

