-- ==== Sys2Proof/Machine/Ops.lean ====
section
/-! DEFINITION. The shared operations: the response and the refusal of a command, the Fault Registry primitives, the
state-change primitive `enter`, and the fault path of the block, into Error and out of it. -/

namespace Sys2Proof.Machine

/-! ### The response port (`30_encoding.md` rules R83 and R89) -/

/-- An accepted command answers `v`. -/
def State.respond (s : State) (v : Word) : State := { s with rsp := some ⟨false, v⟩ }

/-- `raise Refused`: no state element changes, the response has `rsp_err = 1` and `rsp = 0` (rules R7, R83). -/
def State.refuse (s : State) : State := { s with rsp := some ⟨true, 0⟩ }

/-- No response: `rsp_valid = 0`, as after a pin event (rule R89). -/
def State.silent (s : State) : State := { s with rsp := none }

/-! ### Reset (`10_state.md` rule R55, `70_reset_and_hazards.md` rule R250) -/

/-- Every state element takes its reset value, all at once; what the environment is about to present stays. -/
def State.toReset (P : Params) (s : State) : State := { State.resetWith P with pins := s.pins }

/-! ### The Fault Registry (`40_fault_registry.md` rules R110, R111, R117) -/

/-- `FR.report(c)`: the registry after it, and its answer. -/
def frReport (P : Params) (fr : RegistryState) (c : U8) : RegistryState × Word :=
  if c ∈ fr.faults then (fr, 0)
  else if fr.faults.length = P.faultCap then ({ fr with overflow := true }, 2)
  else ({ fr with faults := fr.faults ++ [c] }, 1)

/-- `FR.clear(c)`: the registry after it, and its answer. -/
def frClear (fr : RegistryState) (c : U8) : RegistryState × Word :=
  if c ∈ Config.classB then (fr, 0)
  else if c ∈ fr.faults then ({ fr with faults := fr.faults.erase c }, 1)
  else (fr, 0)

/-- `if cond then FR.report(c)`. -/
def frReportIf (P : Params) (cond : Bool) (fr : RegistryState) (c : U8) : RegistryState :=
  if cond then (frReport P fr c).1 else fr

/-- `fault_any`: the registry is not empty (rule R117). -/
def faultAny (fr : RegistryState) : Bool := !fr.faults.isEmpty

/-! ### The state change (`43_relay_control.md` rule R160) -/

/-- The timers and the relay selection that entering `st` loads. -/
def loadOnEntry (P : Params) (st : Status) (r : RelayState) : RelayState :=
  match st with
  | .shutdown => { r with shutdownCounter := P.shutdownGrace }
  | .errorWait => { r with errorWaitCounter := P.errorWaitDwell }
  | .tempWait => { r with tempWaitTimer := P.tempwaitDwell }
  | .lowFlow => { r with lowflowSel := !r.lowflowSel }
  | _ => r

/-- `enter(st)`: nothing when `st` is the present status. -/
def enter (P : Params) (st : Status) (r : RelayState) : RelayState :=
  if st = r.status then r
  else loadOnEntry P st { r with previousStatus := r.status, status := st }

/-! ### The fault path (`60_exceptions.md` rules R225 to R228): the block's one trap-like path -/

/-- Override (a): any active fault forces Error; `previous_status` is all that is saved (rules R158, R225). -/
def faultOverride (P : Params) (s : State) : State :=
  if faultAny s.fr then { s with rc := enter P .error s.rc } else s

/-- The return, first half: out of Error to ErrorWait once the registry is empty (rules R168, R227). -/
def leaveError (P : Params) (fr : RegistryState) (r : RelayState) : RelayState :=
  if faultAny fr then r else enter P .errorWait r

/-- The return, second half: the dwell of ErrorWait counts down to Initial (rules R169, R227). -/
def leaveErrorWait (P : Params) (r : RelayState) : RelayState :=
  let r' := { r with errorWaitCounter := countDown r.errorWaitCounter }
  if r'.errorWaitCounter = 0 then enter P .initial r' else r'

end Sys2Proof.Machine
end

