-- ==== Sys2Proof/Machine/Registry.lean ====
section
/-! DEFINITION. The Fault Registry operations FREPORT, FCLEAR, FEXISTS and FCOUNT (`40_fault_registry.md` rules R113 to
R116). -/

namespace Sys2Proof.Machine

/-- FREPORT (rule R113) under the parameters `P`. -/
def opFreport (P : Params) (c : U8) (s : State) : State :=
  if c = 0 then s.refuse
  else { s with fr := (frReport P s.fr c).1 }.respond (frReport P s.fr c).2

/-- FREPORT c. -/
def execFreport (c : U8) (s : State) : Host.Outcome State Fault Refusal :=
  .next (opFreport Config.params c s)

/-- FCLEAR (rule R114). -/
def opFclear (c : U8) (s : State) : State :=
  if c = 0 then s.refuse
  else { s with fr := (frClear s.fr c).1 }.respond (frClear s.fr c).2

/-- FCLEAR c. -/
def execFclear (c : U8) (s : State) : Host.Outcome State Fault Refusal :=
  .next (opFclear c s)

/-- FEXISTS (rule R115). -/
def opFexists (c : U8) (s : State) : State :=
  if c = 0 then s.refuse else s.respond (bitWord (decide (c ∈ s.fr.faults)))

/-- FEXISTS c. -/
def execFexists (c : U8) (s : State) : Host.Outcome State Fault Refusal :=
  .next (opFexists c s)

/-- FCOUNT (rule R116). -/
def execFcount (s : State) : Host.Outcome State Fault Refusal :=
  .next (s.respond (BitVec.ofNat 32 s.fr.faults.length))

end Sys2Proof.Machine
end

