-- ==== Sys2Proof/Machine/Binary32.lean ====
section
/-! DEFINITION. Binary32 arithmetic (`44_pid.md` rule R190, `30_encoding.md` rule R93): operands are turned into exact
integers, the result is computed exactly and rounded once, to nearest with ties to even. No operation is fused. That NUM
is IEEE 754 is what the spec itself supplies from general knowledge: PRESUMED, unsafe (log entry 9). -/

namespace Sys2Proof.Machine

/-- A binary32 number that is not a NaN: an infinity, or (−1)^neg · mag · 2^−149. Every finite binary32 value is an
integer multiple of 2^−149; the sign is kept for the zeros. -/
inductive F32Num where
  | inf (neg : Bool)
  | fin (neg : Bool) (mag : Nat)
  deriving DecidableEq, Repr

/-- A binary32 value: `none` is a NaN. No operation lets the bits of a NaN be seen. -/
abbrev F32 := Option F32Num

/-- The magnitude, in units of 2^−149, of the 31-bit pattern `p` of a finite value. -/
def patternMag (p : Nat) : Nat :=
  if p / 2 ^ 23 = 0 then p else (2 ^ 23 + p % 2 ^ 23) * 2 ^ (p / 2 ^ 23 - 1)

/-- The value of a binary32 pattern (rule R93). -/
def f32OfBits (x : Word) : F32 :=
  let p := (x.extractLsb' 0 31).toNat
  if p < 0x7F800000 then some (.fin (x.getLsbD 31) (patternMag p))
  else if p = 0x7F800000 then some (.inf (x.getLsbD 31))
  else none

/-- `m / 2^sh` rounded to the nearest integer, ties to even. -/
def roundShift (m sh : Nat) : Nat :=
  let d := m / 2 ^ sh
  let r := m % 2 ^ sh
  if 2 ^ sh < 2 * r ∨ (2 * r = 2 ^ sh ∧ d % 2 = 1) then d + 1 else d

/-- The 31-bit pattern nearest to `m · 2^−(149 + j)`, at or above 0x7F800000 on overflow. At most 24 bits of `m` are
kept, and none below 2^−149; adding the binade to the rounded significand carries into the exponent as it should. -/
def roundPattern (m j : Nat) : Nat :=
  let sh := max j (Nat.log2 m - 23)
  roundShift m sh + (sh - j) * 2 ^ 23

/-- `(−1)^neg · m · 2^−(149 + j)` as a binary32 number. -/
def roundNum (neg : Bool) (m j : Nat) : F32Num :=
  let p := roundPattern m j
  if p < 0x7F800000 then .fin neg (patternMag p) else .inf neg

/-- The binary32 pattern of a number. -/
def F32Num.toBits : F32Num → Word
  | .inf neg => BitVec.ofBool neg ++ (0x7F800000 : BitVec 31)
  | .fin neg mag => BitVec.ofBool neg ++ BitVec.ofNat 31 (roundPattern mag 0)

/-- `(−1)^neg · mag`. -/
def signed (neg : Bool) (mag : Nat) : Int := if neg then -(mag : Int) else mag

/-- The order of two numbers, −0 and +0 equal. -/
def F32Num.lt : F32Num → F32Num → Bool
  | .inf a, .inf b => a && !b
  | .inf a, .fin _ _ => a
  | .fin _ _, .inf b => !b
  | .fin a m, .fin b n => decide (signed a m < signed b n)

/-- `x < y`, false whenever an operand is a NaN. -/
def flt : F32 → F32 → Bool
  | some x, some y => x.lt y
  | _, _ => false

/-- `fadd` of two numbers. A zero sum is +0 unless both operands are −0. -/
def F32Num.add : F32Num → F32Num → F32
  | .inf a, .inf b => if a = b then some (.inf a) else none
  | .inf a, .fin _ _ => some (.inf a)
  | .fin _ _, .inf b => some (.inf b)
  | .fin a m, .fin b n =>
    let s := signed a m + signed b n
    if s = 0 then some (.fin (a && b) 0) else some (roundNum (decide (s < 0)) s.natAbs 0)

/-- `fadd(a, b)`. -/
def fadd : F32 → F32 → F32
  | some x, some y => x.add y
  | _, _ => none

/-- The number with its sign turned. -/
def F32Num.neg : F32Num → F32Num
  | .inf a => .inf (!a)
  | .fin a m => .fin (!a) m

/-- `fsub(a, b)`. -/
def fsub (a b : F32) : F32 := fadd a (b.map F32Num.neg)

/-- `fmul` of two numbers. -/
def F32Num.mul : F32Num → F32Num → F32
  | .inf a, .inf b => some (.inf (a ^^ b))
  | .inf a, .fin b n => if n = 0 then none else some (.inf (a ^^ b))
  | .fin a m, .inf b => if m = 0 then none else some (.inf (a ^^ b))
  | .fin a m, .fin b n => some (roundNum (a ^^ b) (m * n) 149)

/-- `fmul(a, b)`. -/
def fmul : F32 → F32 → F32
  | some x, some y => x.mul y
  | _, _ => none

/-- `f_of_int(n)`. -/
def fOfInt (n : Int) : F32 := some (roundNum (decide (n < 0)) (n.natAbs * 2 ^ 149) 0)

/-- `fhalf(x)` = `fmul(x, 0.5)`. -/
def fhalf (x : F32) : F32 := fmul x (f32OfBits 0x3F000000)

/-- `+0.0`. -/
def F32Num.zero : F32Num := .fin false 0

/-- `120.0`, the upper end of the clamp of rule R196. -/
def F32Num.dutyTop : F32Num := .fin false (120 * 2 ^ 149)

/-- `fclamp(x, lo, hi)`: lo if x is a NaN or x < lo, hi if x > hi, else x. -/
def fclamp (x : F32) (lo hi : F32Num) : F32Num :=
  match x with
  | none => lo
  | some y => if y.lt lo then lo else if hi.lt y then hi else y

/-- `ftrunc(x)` for 0 ≤ x ≤ 120, the only values it is applied to: the integer part. -/
def ftrunc : F32Num → Nat
  | .fin false m => m / 2 ^ 149
  | _ => 0

end Sys2Proof.Machine
end

