-- ==== Sys2Proof/Machine/Flags.lean ====
section
/-! DEFINITION. The predicates and flag computations of the rules: the modulator's permit, the thermistor
classification and its debounce, and the detectors and conditions of the control cycle. Each reads the state as it is
when the rule that uses it runs; CTRL writes no input and, before its step C7, no history, so `valid` and `rise` are
the same throughout a cycle (`43_relay_control.md` rule R152). -/

namespace Sys2Proof.Machine

/-! ### The heating states and the permit (`42_modulator.md` rule R131) -/

/-- Running, LowFlow or StandbyHeat: the states that permit output (rule R131) and that a dry-fire ends
(rule R157). -/
def heating : Status → Bool
  | .running => true
  | .lowFlow => true
  | .standbyHeat => true
  | _ => false

/-- The permit predicate (rule R131). -/
def permit (s : State) : Bool := !faultAny s.fr && heating s.rc.status

/-! ### Thermistor check (`41_thermistor_check.md` rules R120 and R121) -/

/-- `is_open` (rule R120). -/
def isOpen (c : CountInput) : Bool := decide (c.count.toNat < Config.openTh)

/-- `is_short` (rule R120). -/
def isShort (c : CountInput) : Bool := decide (Config.shortTh < c.count.toNat) && !c.pinHigh

/-- One evaluation of one fault bit (rule R121). -/
def debounce (P : Params) (cond : Bool) (b : FaultBit) : FaultBit :=
  if cond ≠ b.fault then
    let deb := sat8Inc b.deb
    if (if cond then P.thSetN else P.thClrN) ≤ deb.toNat then ⟨cond, 0⟩ else ⟨b.fault, deb⟩
  else ⟨b.fault, 0⟩

/-! ### Values of one control cycle (`43_relay_control.md` rules R152 to R161) -/

/-- `valid[ch]` (rule R152). -/
def valid (s : State) (ch : Channel) : Bool := (s.inp.temps.get ch).detected

/-- `temp[ch]` as an integer (rule R46). -/
def temp (s : State) (ch : Channel) : Int := (s.inp.temps.get ch).temp.toInt

/-- `rise[ch]` (rule R152). -/
def rise (s : State) (ch : Channel) : Int :=
  if valid s ch && (s.det.history.get ch).prevValid then temp s ch - (s.det.history.get ch).tPrev.toInt else 0

/-- The number of valid chambers (rule R153). -/
def validChambers (s : State) : Nat := Channel.chambers.countP (valid s)

/-- The configuration that a number of valid chambers stands for (rule R153). -/
def cfgOfCount (n : Nat) : ChamberCfg := if 3 ≤ n then .four else if n = 2 then .two else .one

/-- `df_now` (rule R154). -/
def dryFireNow (P : Params) (s : State) : Bool :=
  Channel.chambers.any fun ch => valid s ch && decide (P.dryfireRiseTh < rise s ch)

/-- `dryfire` (rule R154), from the confirm counter of this cycle. -/
def dryFire (P : Params) (s : State) : Bool := decide (P.confirmN ≤ s.det.dryfireConfirm.toNat)

/-- `iov_now` (rule R155): inlet above outlet, both valid. -/
def inletOverOutlet (s : State) : Bool :=
  valid s .inlet && valid s .outlet && decide (temp s .outlet < temp s .inlet)

/-- The chambers of a bank under a configuration, none where the configuration has no such bank (rules R94,
R156). -/
def bankChambers : ChamberCfg → Bank → Option (List Channel)
  | .undetected, _ => none
  | .four, .bank0 => some [.chamber0, .chamber1]
  | .four, .bank1 => some [.chamber2, .chamber3]
  | _, .bank0 => some Channel.chambers
  | _, .bank1 => none

/-- `hot` (rule R156) for a bank of the given chambers. -/
def hot (P : Params) (s : State) (chs : List Channel) : Bool :=
  (chs.any fun ch => valid s ch && decide (P.scaleTempHigh.toInt < temp s ch)) ||
    (decide (s.det.chamberCfg = .two) && s.inp.avgDiffErr)

/-- One cycle of the scale detector of a bank whose anomaly is `anomaly` (rule R156). -/
def scaleStep (P : Params) (anomaly : Bool) (b : BankState) : BankState :=
  let confirm := confirmStep anomaly b.scaleConfirm
  let cnt := if confirm.toNat = P.confirmN then sat8Inc b.scaleCnt else b.scaleCnt
  ⟨confirm, cnt, b.bankLock || decide (P.scaleEventLimit.val < cnt.toNat)⟩

/-- `over` (rule R159): the outlet is valid and above CEILING[MODE]. -/
def overCeiling (P : Params) (s : State) : Bool :=
  valid s .outlet && decide ((P.ceiling s.set.mode).toInt < temp s .outlet)

/-- `satisfied` (rule R161): every valid chamber has reached STANDBY_TARGET. -/
def satisfied (P : Params) (s : State) : Bool :=
  Channel.chambers.all fun ch => !valid s ch || decide (P.standbyTarget.toInt ≤ temp s ch)

/-- `want_standby` (rule R161). -/
def wantStandby (P : Params) (s : State) : Bool :=
  s.set.standbyEn && !satisfied P s && decide (s.rc.dryFireWaitTimer = 0)

end Sys2Proof.Machine
end

