-- ==== Sys2Proof/Machine/Pid.lean ====
section
/-! DEFINITION. The PID duty computation, a step of CTRL (`44_pid.md` rules R190 to R198). The order of the binary32
operations is the order written in the rules. -/

namespace Sys2Proof.Machine

/-- INTEGRAL_LIMIT as a number: a pattern outside the legal range stands for +0.0. -/
def integralLimit (P : Params) : F32Num :=
  match f32OfBits P.integralLimitBits with
  | none => F32Num.zero
  | some x => if x.lt F32Num.zero then F32Num.zero else x

/-- The error term `e` (rule R191). -/
def pidError (s : State) : F32 := fhalf (fOfInt (s.set.target.toInt - temp s .outlet))

/-- The new integral (rule R192). -/
def pidIntegral (P : Params) (s : State) : F32Num :=
  fclamp (fadd (f32OfBits s.rc.integral) (pidError s)) F32Num.zero (integralLimit P)

/-- Proportional and integral contributions, with the new integral (rule R193). -/
def pidBase (P : Params) (s : State) : F32 :=
  fadd (fmul (f32OfBits s.set.kp) (pidError s)) (fmul (f32OfBits s.set.ki) (some (pidIntegral P s)))

/-- The outlet's rate of change `r` (rule R194). -/
def pidRate (s : State) : F32 := fOfInt (rise s .outlet)

/-- The asymmetric derivative correction (rule R194). -/
def pidDerivative (s : State) (u : F32) : F32 :=
  if flt (some F32Num.zero) (pidRate s) then fadd u (fmul (f32OfBits s.set.kdRise) (pidRate s))
  else if flt (pidRate s) (some F32Num.zero) then fadd u (fmul (f32OfBits s.set.kdFall) (pidRate s))
  else u

/-- The preburn boost with its damping (rule R195). -/
def pidPreburn (P : Params) (s : State) (u : F32) : F32 :=
  if flt (f32OfBits P.preburnErr) (pidError s) && flt (pidRate s) (f32OfBits P.preburnRate) then
    fadd u (fsub (f32OfBits P.preburnBoost) (fmul (f32OfBits P.preburnDamp) (pidRate s)))
  else u

/-- Clamp and conversion to an integer duty (rule R196). -/
def pidConvert (u : F32) : U8 := BitVec.ofNat 8 (ftrunc (fclamp u F32Num.zero F32Num.dutyTop))

/-- The PID step (rules R197, R198): the relay state with the new integral, and `pid_out`. -/
def pidStep (P : Params) (s : State) : RelayState × U8 :=
  if valid s .outlet then
    ({ s.rc with integral := (pidIntegral P s).toBits }, pidConvert (pidPreburn P s (pidDerivative s (pidBase P s))))
  else (s.rc, 0)

end Sys2Proof.Machine
end

