-- ==== Sys2Proof/Machine/Control.lean ====
section
/-! DEFINITION. The control cycle CTRL and the relay/heating state machine (`43_relay_control.md` rules R150 to R176).
One definition per step C0 to C7 of rule R150 and one per state of C5. -/

namespace Sys2Proof.Machine

/-! ### C0 to C3 -/

/-- C0: count the cycle and latch the staged forced-duty command (rule R151). -/
def bookkeeping (s : State) : State :=
  { s with
    det := { s.det with cycleCount := sat16Inc s.det.cycleCount }
    pm :=
      if s.pm.fcPending then
        { s.pm with forced := if s.pm.fcEn then some s.pm.fcVal else none, fcPending := false }
      else s.pm }

/-- C2: the chamber configuration, once, at cycle DETECT_CYCLES (rule R153). -/
def detectChambers (P : Params) (s : State) : State :=
  if s.det.cycleCount.toNat = P.detectCycles ∧ s.det.chamberCfg = .undetected then
    { s with det := { s.det with chamberCfg := cfgOfCount (validChambers s) } }
  else s

/-- C3, dry-fire detector (rule R154). -/
def detectDryFire (P : Params) (s : State) : State :=
  { s with det := { s.det with dryfireConfirm := confirmStep (dryFireNow P s) s.det.dryfireConfirm } }

/-- C3, shutdown flag (rule R155). -/
def detectShutdown (P : Params) (s : State) : State :=
  let iov := confirmStep (inletOverOutlet s) s.det.iovConfirm
  let rev := confirmStep s.inp.reverseFlow s.det.revConfirm
  { s with
    det := { s.det with iovConfirm := iov, revConfirm := rev }
    rc := { s.rc with shutdownFlag := decide (P.persistN ≤ iov.toNat) || decide (P.persistN ≤ rev.toNat) } }

/-- The scale detector of one bank; a bank that the configuration does not have keeps its state (rule R156). -/
def scaleBank (P : Params) (s : State) (b : Bank) : BankState :=
  match bankChambers s.det.chamberCfg b with
  | none => s.det.banks.get b
  | some chs => scaleStep P (s.inp.flowPresent && hot P s chs) (s.det.banks.get b)

/-- The code SCALE_DETECTION_ERROR_BANKb (rule R86). -/
def scaleCode (b : Bank) : U8 := BitVec.ofNat 8 (0x30 + b.toNat)

/-- C3, scale detector (rule R156), and the reports of the locked banks (rules R156, R221). DEDUCED,
safe for every run: the report does not wait for a detected configuration (log entry 7). -/
def detectScale (P : Params) (s : State) : State :=
  let banks := PerBank.build (scaleBank P s)
  { s with
    det := { s.det with banks := banks }
    fr :=
      frReportIf P banks.bank1.bankLock (frReportIf P banks.bank0.bankLock s.fr (scaleCode .bank0))
        (scaleCode .bank1) }

/-! ### C4 -/

/-- C4, dry-fire transition (rule R157). -/
def dryFireTransition (P : Params) (s : State) : State :=
  if dryFire P s && heating s.rc.status then
    { s with
      rc :=
        enter P (if s.rc.status = .standbyHeat then .standbyCool else .dryFireWait)
          { s.rc with dryFireWaitTimer := P.dryfireDwell } }
  else s

/-- C4, override (b): the outlet ceiling (rule R159). Not applied with a fault, nor in Error and ErrorWait. -/
def ceilingOverride (P : Params) (s : State) : State :=
  if !faultAny s.fr && decide (s.rc.status ≠ .error) && decide (s.rc.status ≠ .errorWait) && overCeiling P s then
    { s with rc := enter P .tempWait s.rc }
  else s

/-! ### C5: the logic of one state. Each answers the relay state and, where the PID step ran, `pid_out`. -/

/-- Heating with flow: LowFlow when the flow is low, Running otherwise. -/
def enterByFlow (P : Params) (s : State) (r : RelayState) : RelayState :=
  enter P (if s.inp.flowLow then .lowFlow else .running) r

/-- Flow found in an idle state: a pending dry-fire wait is served first (rules R162, R166). -/
def enterOnFlow (P : Params) (r : RelayState) : RelayState :=
  enter P (if r.dryFireWaitTimer ≠ 0 then .dryFireWait else .running) r

/-- Initial (rule R162). -/
def logicInitial (P : Params) (s : State) : RelayState :=
  if s.inp.flowPresent then enterOnFlow P s.rc else enter P .standbyCool s.rc

/-- Running (rule R163). -/
def logicRunning (P : Params) (s : State) : RelayState × Option U8 :=
  if !s.inp.flowPresent || s.rc.shutdownFlag then (enter P .shutdown s.rc, none)
  else if s.inp.flowLow then (enter P .lowFlow s.rc, none)
  else ((pidStep P s).1, some (pidStep P s).2)

/-- LowFlow (rule R164). -/
def logicLowFlow (P : Params) (s : State) : RelayState × Option U8 :=
  if !s.inp.flowPresent || s.rc.shutdownFlag then (enter P .shutdown s.rc, none)
  else if !s.inp.flowLow then (enter P .running s.rc, none)
  else ((pidStep P s).1, some (pidStep P s).2)

/-- Shutdown (rule R165). -/
def logicShutdown (P : Params) (s : State) : RelayState :=
  let r := { s.rc with shutdownCounter := countDown s.rc.shutdownCounter }
  if r.shutdownCounter = 0 then
    if s.inp.flowPresent then enterByFlow P s r
    else if wantStandby P s then enter P .standbyHeat r
    else enter P .standbyCool r
  else r

/-- StandbyCool (rule R166). -/
def logicStandbyCool (P : Params) (s : State) : RelayState :=
  if s.inp.flowPresent then enterOnFlow P s.rc
  else if wantStandby P s then enter P .standbyHeat s.rc
  else s.rc

/-- StandbyHeat (rule R167). -/
def logicStandbyHeat (P : Params) (s : State) : RelayState :=
  if s.inp.flowPresent then enterByFlow P s s.rc
  else if !wantStandby P s then enter P .standbyCool s.rc
  else s.rc

/-- DryFireWait (rule R170). -/
def logicDryFireWait (P : Params) (s : State) : RelayState :=
  if !s.inp.flowPresent then enter P .shutdown s.rc
  else
    let r := { s.rc with dryFireWaitTimer := countDown s.rc.dryFireWaitTimer }
    if r.dryFireWaitTimer = 0 then enterByFlow P s r else r

/-- TempWait (rule R171). -/
def logicTempWait (P : Params) (s : State) : RelayState :=
  let r := { s.rc with tempWaitTimer := countDown s.rc.tempWaitTimer }
  if r.tempWaitTimer = 0 then
    if overCeiling P s then { r with tempWaitTimer := P.tempwaitDwell } else enter P .initial r
  else r

/-- C5: the logic of the one state that `status` names (rules R162 to R171). -/
def stateLogic (P : Params) (s : State) : RelayState × Option U8 :=
  match s.rc.status with
  | .initial => (logicInitial P s, none)
  | .running => logicRunning P s
  | .shutdown => (logicShutdown P s, none)
  | .standbyCool => (logicStandbyCool P s, none)
  | .standbyHeat => (logicStandbyHeat P s, none)
  | .lowFlow => logicLowFlow P s
  | .error => (leaveError P s.fr s.rc, none)
  | .errorWait => (leaveErrorWait P s.rc, none)
  | .dryFireWait => (logicDryFireWait P s, none)
  | .tempWait => (logicTempWait P s, none)

/-! ### C6 and C7 -/

/-- `relay[0]`, `relay[1]` of a status (rule R172). -/
def relaysOf (st : Status) (lowflowSel : Bool) : Bool × Bool :=
  match st with
  | .running => (true, true)
  | .standbyHeat => (true, true)
  | .lowFlow => (!lowflowSel, lowflowSel)
  | _ => (false, false)

/-- C6, the duty request (rule R173). -/
def dutyRequest (P : Params) (st : Status) (pidOut : Option U8) (old : U8) : U8 :=
  match pidOut with
  | some d => d
  | none =>
    match st with
    | .standbyHeat => BitVec.ofNat 8 (min P.standbyDuty.val Config.dutyMax)
    | .running => old
    | .lowFlow => old
    | _ => 0

/-- C5 and C6: the state logic, then the relays and the duty request from the state at its end. -/
def logicAndOutputs (P : Params) (s : State) : State :=
  let (r, pidOut) := stateLogic P s
  { s with
    rc := { r with relay0 := (relaysOf r.status r.lowflowSel).1, relay1 := (relaysOf r.status r.lowflowSel).2 }
    pm := { s.pm with dutyReq := dutyRequest P r.status pidOut s.pm.dutyReq } }

/-- The history of one channel after a cycle (rule R174). -/
def historyStep (s : State) (ch : Channel) : ChannelHistory :=
  ⟨if valid s ch then (s.inp.temps.get ch).temp else (s.det.history.get ch).tPrev, valid s ch⟩

/-- C7: history (rule R174). -/
def recordHistory (s : State) : State :=
  { s with det := { s.det with history := .build (historyStep s) } }

/-- C0 to C3: bookkeeping, configuration and detectors. -/
def detectors (P : Params) (s : State) : State :=
  detectScale P (detectShutdown P (detectDryFire P (detectChambers P (bookkeeping s))))

/-- C4: the dry-fire transition, then override (a), then override (b). -/
def overrides (P : Params) (s : State) : State :=
  ceilingOverride P (faultOverride P (dryFireTransition P s))

/-- One control cycle (rule R150), without its response. -/
def controlCycle (P : Params) (s : State) : State :=
  recordHistory (logicAndOutputs P (overrides P (detectors P s)))

/-- CTRL (rule R150) under the parameters `P`. -/
def opCtrl (P : Params) (s : State) : State :=
  (controlCycle P s).respond ((controlCycle P s).rc.status.code.setWidth 32)

/-- CTRL. -/
def execCtrl (s : State) : Host.Outcome State Fault Refusal :=
  .next (opCtrl Config.params s)

end Sys2Proof.Machine
end

