-- ==== Sys2Proof/Machine/Modulator.lean ====
section
/-! DEFINITION. The phase modulator operations ZCEDGE, XCROSS, SETDUTY, SETFORCE and CLRFORCE (`42_modulator.md` rules
R130 to R139). -/

namespace Sys2Proof.Machine

/-- The duty in force: the forced value where there is one, the requested duty otherwise (rule R139). -/
def dutyInForce (m : ModulatorState) : U8 := m.forced.getD m.dutyReq

/-- `min(t div 15, 8)` (rule R134). -/
def quantMode (t : Nat) : Nat := min (t / Config.dutyPerMode) Config.modeMax

/-- Quantise (rule R134): the next frame's row, and the remainder carried on. Nothing is cut to 8 bits in a reachable
state (log entry 8). -/
def quantise (m : ModulatorState) : ModulatorState :=
  let t := (dutyInForce m).toNat + m.remainder.toNat
  { m with
    powerMode := BitVec.ofNat 8 (quantMode t)
    remainder := BitVec.ofNat 8 (t - Config.dutyPerMode * quantMode t) }

/-- The index that completes the frame: 7 when `offset_phase` is 1, 8 when it is 0 (rule R133). -/
def completingIndex (offsetPhase : Bool) : U8 := if offsetPhase then 7 else 8

/-- Drive both switches and the output-state flag with one bit (rules R133, R142). -/
def drive (bit : Bool) (m : ModulatorState) : ModulatorState :=
  { m with opto0 := bit, opto1 := bit, optoStatus := bit }

/-- Advance in the frame, and re-quantise where it completes (rule R133). -/
def advance (m : ModulatorState) : ModulatorState :=
  if m.crossingIndex = completingIndex m.offsetPhase then
    quantise { m with crossingIndex := 0, offsetPhase := !m.offsetPhase }
  else { m with crossingIndex := m.crossingIndex + 1 }

/-- The permitted path (rule R133): the lookup uses the row and index held before this crossing. -/
def permittedPath (P : Params) (m : ModulatorState) : ModulatorState :=
  advance (drive (P.pattern m.powerMode.toNat m.crossingIndex.toNat) m)

/-- The inhibit path (rule R135): outputs off and a clean frame, `power_mode` included. -/
def inhibitPath (m : ModulatorState) : ModulatorState :=
  { drive false m with crossingIndex := 0, offsetPhase := false, remainder := 0, powerMode := 0 }

/-- The crossing step (rule R132), without its response. -/
def crossing (P : Params) (s : State) : State :=
  { s with pm := if permit s then permittedPath P s.pm else inhibitPath s.pm }

/-- XCROSS (rule R132) under the parameters `P`. -/
def opXcross (P : Params) (s : State) : State :=
  (crossing P s).respond (bitWord (crossing P s).pm.optoStatus)

/-- XCROSS. -/
def execXcross (s : State) : Host.Outcome State Fault Refusal :=
  .next (opXcross Config.params s)

/-- ZCEDGE (rule R130): the event is latched; a second one is absorbed. -/
def execZcedge (s : State) : Host.Outcome State Fault Refusal :=
  .next ({ s with pm := { s.pm with zcPending := true } }.respond 0)

/-- SETDUTY d (rule R136). -/
def execSetduty (d : U8) (s : State) : Host.Outcome State Fault Refusal :=
  .next ({ s with pm := { s.pm with dutyReq := capDuty d } }.respond ((capDuty d).setWidth 32))

/-- SETFORCE d (rule R137): staged until the next control cycle. -/
def execSetforce (d : U8) (s : State) : Host.Outcome State Fault Refusal :=
  .next ({ s with pm := { s.pm with fcPending := true, fcEn := true, fcVal := capDuty d } }.respond
    ((capDuty d).setWidth 32))

/-- CLRFORCE (rule R138): staged like SETFORCE. -/
def execClrforce (s : State) : Host.Outcome State Fault Refusal :=
  .next ({ s with pm := { s.pm with fcPending := true, fcEn := false, fcVal := 0 } }.respond 0)

end Sys2Proof.Machine
end

