-- ==== Sys2Proof/Machine/RegMap.lean ====
section
/-! DEFINITION. The map of the register space: which of the 256 addresses names which register, and which registers
are RW (`20_memory.md` rule R66, `10_state.md` rules R30 to R50). -/

namespace Sys2Proof.Machine

/-- The registers of rules R30 to R50. -/
inductive Reg where
  | status
  | pmstate
  | force
  | shutdownCnt
  | errwaitCnt
  | dryfireTmr
  | tempwaitTmr
  | integral
  | cycles
  | confirm
  | scale (b : Bank)
  | fcount
  | thflags
  | target
  | mode
  | units
  | standbyEn
  | kp
  | ki
  | kdRise
  | kdFall
  | inFlow
  | inTemp (ch : Channel)
  | inCount (ch : Channel)
  | fslot (i : Nat)
  | tprev (ch : Channel)
  | thdeb (ch : Channel)
  deriving DecidableEq, Repr

/-- The register at address `n` of the fixed part of the map (0x00 to 0x3F), none where nothing is mapped. -/
def Reg.ofLow : Nat → Option Reg
  | 0x00 => some .status
  | 0x01 => some .pmstate
  | 0x02 => some .force
  | 0x03 => some .shutdownCnt
  | 0x04 => some .errwaitCnt
  | 0x05 => some .dryfireTmr
  | 0x06 => some .tempwaitTmr
  | 0x07 => some .integral
  | 0x08 => some .cycles
  | 0x09 => some .confirm
  | 0x0A => some (.scale .bank0)
  | 0x0B => some (.scale .bank1)
  | 0x0C => some .fcount
  | 0x0D => some .thflags
  | 0x10 => some .target
  | 0x11 => some .mode
  | 0x12 => some .units
  | 0x13 => some .standbyEn
  | 0x14 => some .kp
  | 0x15 => some .ki
  | 0x16 => some .kdRise
  | 0x17 => some .kdFall
  | 0x20 => some .inFlow
  | _ => none

/-- The register at address `a`, none where the map has nothing (rule R66). The FSLOT window ends at
0x40 + FAULT_CAP − 1 (rule R48). -/
def Reg.ofAddr (P : Params) (a : U8) : Option Reg :=
  let n := a.toNat
  if n < 0x28 then Reg.ofLow n
  else if n < 0x30 then (Channel.ofNat? (n - 0x28)).map .inTemp
  else if n < 0x40 then (Channel.ofNat? (n - 0x30)).map .inCount
  else if n < 0x50 then (if n - 0x40 < P.faultCap then some (.fslot (n - 0x40)) else none)
  else if n < 0x58 then (Channel.ofNat? (n - 0x50)).map .tprev
  else (Channel.ofNat? (n - 0x58)).map .thdeb

/-- Access class RW (rule R66): the settings and the collaborator inputs. -/
def Reg.writable : Reg → Bool
  | .target => true
  | .mode => true
  | .units => true
  | .standbyEn => true
  | .kp => true
  | .ki => true
  | .kdRise => true
  | .kdFall => true
  | .inFlow => true
  | .inTemp _ => true
  | .inCount _ => true
  | _ => false

end Sys2Proof.Machine
end

