-- ==== Sys2Proof/Machine/Operands.lean ====
section
/-! DEFINITION. The register space as operations see it: the 32-bit value of every register and the effect of writing
every RW register (`10_state.md` rules R30 to R50, `20_memory.md` rules R61 to R67); and the output pins (rule R51). -/

namespace Sys2Proof.Machine

/-- STATUS (rule R30), the most significant field first. -/
def statusWord (s : State) : Word :=
  (0 : BitVec 11) ++ BitVec.ofBool s.fr.overflow ++ BitVec.ofBool s.det.banks.bank1.bankLock ++
    BitVec.ofBool s.det.banks.bank0.bankLock ++ s.det.chamberCfg.code ++ BitVec.ofBool s.rc.lowflowSel ++
    BitVec.ofBool s.rc.shutdownFlag ++ BitVec.ofBool s.pm.zcPending ++ BitVec.ofBool s.pm.optoStatus ++
    BitVec.ofBool s.pm.opto1 ++ BitVec.ofBool s.pm.opto0 ++ BitVec.ofBool s.rc.relay1 ++
    BitVec.ofBool s.rc.relay0 ++ s.rc.previousStatus.code ++ s.rc.status.code

/-- PMSTATE (rule R31). `power_mode` and `crossing_index` have four bits each in it. -/
def pmstateWord (m : ModulatorState) : Word :=
  (0 : BitVec 7) ++ BitVec.ofBool m.offsetPhase ++ m.crossingIndex.setWidth 4 ++ m.powerMode.setWidth 4 ++
    m.remainder ++ m.dutyReq

/-- FORCE (rule R32). -/
def forceWord (m : ModulatorState) : Word :=
  (0 : BitVec 6) ++ BitVec.ofBool m.fcPending ++ BitVec.ofBool m.fcEn ++ m.fcVal ++ (0 : BitVec 7) ++
    BitVec.ofBool m.forced.isSome ++ m.forced.getD 0

/-- One bit per channel, channel 5 first. -/
def channelBits (f : Channel → Bool) : BitVec 6 :=
  BitVec.ofBool (f .chamber3) ++ BitVec.ofBool (f .chamber2) ++ BitVec.ofBool (f .chamber1) ++
    BitVec.ofBool (f .chamber0) ++ BitVec.ofBool (f .outlet) ++ BitVec.ofBool (f .inlet)

/-- THFLAGS (rule R39). -/
def thflagsWord (th : PerChannel ThermistorState) : Word :=
  (0 : BitVec 18) ++ channelBits (fun ch => (th.get ch).shortBit.fault) ++ (0 : BitVec 2) ++
    channelBits (fun ch => (th.get ch).openBit.fault)

/-- A bit above a 16-bit field: the layout of IN_TEMP, IN_COUNT and TPREV (rules R46, R47, R49). -/
def flaggedWord (flag : Bool) (x : U16) : Word := (0 : BitVec 15) ++ BitVec.ofBool flag ++ x

/-- IN_FLOW (rule R45). -/
def inFlowWord (i : SensorInputs) : Word :=
  (0 : BitVec 28) ++ BitVec.ofBool i.avgDiffErr ++ BitVec.ofBool i.reverseFlow ++ BitVec.ofBool i.flowLow ++
    BitVec.ofBool i.flowPresent

/-- The value of a register (rules R30 to R50): the named fields, every other bit 0. -/
def regRead (s : State) : Reg → Word
  | .status => statusWord s
  | .pmstate => pmstateWord s.pm
  | .force => forceWord s.pm
  | .shutdownCnt => s.rc.shutdownCounter.setWidth 32
  | .errwaitCnt => s.rc.errorWaitCounter.setWidth 32
  | .dryfireTmr => s.rc.dryFireWaitTimer.setWidth 32
  | .tempwaitTmr => s.rc.tempWaitTimer.setWidth 32
  | .integral => s.rc.integral
  | .cycles => s.ctrlCnt ++ s.det.cycleCount
  | .confirm => (0 : U8) ++ s.det.revConfirm ++ s.det.iovConfirm ++ s.det.dryfireConfirm
  | .scale b => (0 : U16) ++ (s.det.banks.get b).scaleCnt ++ (s.det.banks.get b).scaleConfirm
  | .fcount => (BitVec.ofNat 8 s.fr.faults.length).setWidth 32
  | .thflags => thflagsWord s.th
  | .target => s.set.target.setWidth 32
  | .mode => s.set.mode.setWidth 32
  | .units => bitWord s.set.units
  | .standbyEn => bitWord s.set.standbyEn
  | .kp => s.set.kp
  | .ki => s.set.ki
  | .kdRise => s.set.kdRise
  | .kdFall => s.set.kdFall
  | .inFlow => inFlowWord s.inp
  | .inTemp ch => flaggedWord (s.inp.temps.get ch).detected (s.inp.temps.get ch).temp
  | .inCount ch => flaggedWord (s.inp.counts.get ch).pinHigh (s.inp.counts.get ch).count
  | .fslot i => (s.fr.faults.getD i 0).setWidth 32
  | .tprev ch => flaggedWord (s.det.history.get ch).prevValid (s.det.history.get ch).tPrev
  | .thdeb ch => (0 : U16) ++ (s.th.get ch).shortBit.deb ++ (s.th.get ch).openBit.deb

/-- Write the named fields of an RW register from the same bits of `v` (rules R40 to R47, R202); an RO register
keeps its value. -/
def regWrite (s : State) (r : Reg) (v : Word) : State :=
  match r with
  | .target => { s with set := { s.set with target := v.extractLsb' 0 16 } }
  | .mode => { s with set := { s.set with mode := v.extractLsb' 0 8 } }
  | .units => { s with set := { s.set with units := v.getLsbD 0 } }
  | .standbyEn => { s with set := { s.set with standbyEn := v.getLsbD 0 } }
  | .kp => { s with set := { s.set with kp := v } }
  | .ki => { s with set := { s.set with ki := v } }
  | .kdRise => { s with set := { s.set with kdRise := v } }
  | .kdFall => { s with set := { s.set with kdFall := v } }
  | .inFlow =>
    { s with
      inp :=
        { s.inp with
          flowPresent := v.getLsbD 0
          flowLow := v.getLsbD 1
          reverseFlow := v.getLsbD 2
          avgDiffErr := v.getLsbD 3 } }
  | .inTemp ch =>
    { s with inp := { s.inp with temps := s.inp.temps.set ch ⟨v.extractLsb' 0 16, v.getLsbD 16⟩ } }
  | .inCount ch =>
    { s with inp := { s.inp with counts := s.inp.counts.set ch ⟨v.extractLsb' 0 16, v.getLsbD 16⟩ } }
  | _ => s

/-- The output pins of rule R51 that show state: `opto[1:0]`, `relay[1:0]`, `opto_status`, `status[3:0]`. -/
structure OutputPins where
  opto : BitVec 2
  relay : BitVec 2
  optoStatus : Bool
  status : BitVec 4
  deriving DecidableEq, Repr

/-- The output pins of a state (rule R51). The response pins are `State.rsp`. -/
def State.outputPins (s : State) : OutputPins where
  opto := BitVec.ofBool s.pm.opto1 ++ BitVec.ofBool s.pm.opto0
  relay := BitVec.ofBool s.rc.relay1 ++ BitVec.ofBool s.rc.relay0
  optoStatus := s.pm.optoStatus
  status := s.rc.status.code

end Sys2Proof.Machine
end

