-- ==== Sys2Proof/Machine/System.lean ====
section
/-! DEFINITION. The system operations NOP, RDREG, WRREG, SRESET and TICK (`45_system.md` rules R200 to R206). -/

namespace Sys2Proof.Machine

/-- NOP (rule R200). -/
def execNop (s : State) : Host.Outcome State Fault Refusal :=
  .next (s.respond 0)

/-- RDREG (rule R201) under the parameters `P`; an unmapped address is refused (rule R67). -/
def opRdreg (P : Params) (a : U8) (s : State) : State :=
  match Reg.ofAddr P a with
  | none => s.refuse
  | some r => s.respond (regRead s r)

/-- RDREG a. -/
def execRdreg (a : U8) (s : State) : Host.Outcome State Fault Refusal :=
  .next (opRdreg Config.params a s)

/-- WRREG (rule R202) under the parameters `P`; refused for an unmapped address, an RO register and an illegal value
of MODE (rule R67). -/
def opWrreg (P : Params) (a : U8) (v : Word) (s : State) : State :=
  match Reg.ofAddr P a with
  | none => s.refuse
  | some r =>
    if !r.writable then s.refuse
    else if r = .mode ∧ P.nModes ≤ (v.extractLsb' 0 8).toNat then s.refuse
    else (regWrite s r v).respond 0

/-- WRREG a, v. -/
def execWrreg (a : U8) (v : Word) (s : State) : Host.Outcome State Fault Refusal :=
  .next (opWrreg Config.params a v s)

/-- SRESET (rule R203). -/
def execSreset (s : State) : Host.Outcome State Fault Refusal :=
  .next ((s.toReset Config.params).respond 0)

/-- TICK, first part: consume the latched crossing event (rule R204). -/
def tickCrossing (P : Params) (s : State) : State :=
  if s.pm.zcPending then crossing P { s with pm := { s.pm with zcPending := false } } else s

/-- TICK, second part: the control prescaler, tested before it is decremented (rules R204, R205). -/
def tickControl (P : Params) (s : State) : State :=
  if s.ctrlCnt = 0 then { controlCycle P s with ctrlCnt := BitVec.ofNat 16 (P.ctrlPeriod - 1) }
  else { s with ctrlCnt := s.ctrlCnt - 1 }

/-- TICK (rule R204) under the parameters `P`: the responses of XCROSS and CTRL are discarded. -/
def opTick (P : Params) (s : State) : State := (tickControl P (tickCrossing P s)).respond 0

/-- TICK. -/
def execTick (s : State) : Host.Outcome State Fault Refusal :=
  .next (opTick Config.params s)

end Sys2Proof.Machine
end

