-- ==== Sys2Proof/Machine/Thermistor.lean ====
section
/-! DEFINITION. The thermistor open/short check THCHK (`41_thermistor_check.md` rules R120 to R122). -/

namespace Sys2Proof.Machine

/-- The fault code THERM_OPEN[ch] (rule R86). -/
def openCode (ch : Channel) : U8 := BitVec.ofNat 8 (0x10 + ch.toNat)

/-- The fault code THERM_SHORT[ch] (rule R86). -/
def shortCode (ch : Channel) : U8 := BitVec.ofNat 8 (0x18 + ch.toNat)

/-- `if fault then FR.report(c) else FR.clear(c)` (rule R122). -/
def reportOrClear (P : Params) (fault : Bool) (fr : RegistryState) (c : U8) : RegistryState :=
  if fault then (frReport P fr c).1 else (frClear fr c).1

/-- The evaluation of one channel (rule R122): the open bit and its code, then the short bit and its code. -/
def thermistorCheck (P : Params) (ch : Channel) (s : State) : State :=
  let t := s.th.get ch
  let ob := debounce P (isOpen (s.inp.counts.get ch)) t.openBit
  let sb := debounce P (isShort (s.inp.counts.get ch)) t.shortBit
  let fr := reportOrClear P ob.fault s.fr (openCode ch)
  { s with
    th := s.th.set ch ⟨ob, sb⟩
    fr := reportOrClear P sb.fault fr (shortCode ch) }

/-- The response of THCHK: `open_fault | (short_fault << 1)` (rule R122). -/
def thermistorAnswer (t : ThermistorState) : Word :=
  (0 : BitVec 30) ++ BitVec.ofBool t.shortBit.fault ++ BitVec.ofBool t.openBit.fault

/-- THCHK (rule R122) under the parameters `P`; refused above channel 5. -/
def opThchk (P : Params) (a : U8) (s : State) : State :=
  match Channel.ofNat? a.toNat with
  | none => s.refuse
  | some ch => (thermistorCheck P ch s).respond (thermistorAnswer ((thermistorCheck P ch s).th.get ch))

/-- THCHK ch. -/
def execThchk (a : U8) (s : State) : Host.Outcome State Fault Refusal :=
  .next (opThchk Config.params a s)

end Sys2Proof.Machine
end

