-- ==== Sys2Proof/Machine/Dispatch.lean ====
section
/-! DEFINITION. The meaning of every operation, one arm each. -/

namespace Sys2Proof.Machine

/-- The outcome of one operation accepted as a command. -/
def exec (i : Instr) (s : State) : Host.Outcome State Fault Refusal :=
  match i with
  | .nop => Sys2Proof.Machine.execNop s
  | .rdreg a => Sys2Proof.Machine.execRdreg a s
  | .wrreg a v => Sys2Proof.Machine.execWrreg a v s
  | .sreset => Sys2Proof.Machine.execSreset s
  | .freport c => Sys2Proof.Machine.execFreport c s
  | .fclear c => Sys2Proof.Machine.execFclear c s
  | .fexists c => Sys2Proof.Machine.execFexists c s
  | .fcount => Sys2Proof.Machine.execFcount s
  | .thchk ch => Sys2Proof.Machine.execThchk ch s
  | .zcedge => Sys2Proof.Machine.execZcedge s
  | .xcross => Sys2Proof.Machine.execXcross s
  | .setduty d => Sys2Proof.Machine.execSetduty d s
  | .setforce d => Sys2Proof.Machine.execSetforce d s
  | .clrforce => Sys2Proof.Machine.execClrforce s
  | .ctrl => Sys2Proof.Machine.execCtrl s
  | .tick => Sys2Proof.Machine.execTick s

end Sys2Proof.Machine
end

