-- ==== Sys2Proof/Machine/Pins.lean ====
section
/-! DEFINITION. How the block takes its next operation from the input pins (`10_state.md` rule R51, `30_encoding.md`
rule R92, `70_reset_and_hazards.md` rule R250). -/

namespace Sys2Proof.Machine

/-- What one step is to do. -/
inductive Event where
  /-- `rst_n` is low: reset, and nothing else of that clock is accepted. -/
  | reset
  /-- a pulse on `zc_evt`. -/
  | crossing
  /-- a pulse on `tick_1ms`. -/
  | tick
  /-- a command word with `cmd_valid`. -/
  | command (w : Command)
  /-- nothing asserted. -/
  | idle
  deriving DecidableEq, Repr

/-- The first event of a clock, in the order of rule R92: ZCEDGE, TICK, command. -/
def PinSample.event (p : PinSample) : Event :=
  if !p.rstN then .reset
  else if p.zcEvt then .crossing
  else if p.tick1ms then .tick
  else if p.cmdValid then .command p.cmd
  else .idle

/-- The event of the next clock; with nothing presented the block waits. -/
def nextEvent : List PinSample → Event
  | [] => .idle
  | p :: _ => p.event

/-- The clock with its first event taken out; a low `rst_n` takes the other events of its clock with it. DEDUCED from
rule R250, unsafe (log entry 6). -/
def PinSample.taken (p : PinSample) : PinSample :=
  match p.event with
  | .crossing => { p with zcEvt := false }
  | .tick => { p with tick1ms := false }
  | _ => { p with rstN := true, zcEvt := false, tick1ms := false, cmdValid := false }

/-- The samples after the next event is taken: the clock stays in front while another event of it is waiting. -/
def pinsAfter : List PinSample → List PinSample
  | [] => []
  | p :: ps => if p.taken.event = .idle then ps else p.taken :: ps

/-- The state once its next event is taken from the pins. -/
def State.takeEvent (s : State) : State := { s with pins := pinsAfter s.pins }

/-- A clock that presents one command and nothing else. -/
def PinSample.ofCommand (w : Command) : PinSample := ⟨true, false, false, true, w⟩

/-- A pin event has no response (rule R89). -/
def unanswered : Host.Outcome State Fault Refusal → Host.Outcome State Fault Refusal
  | .next s => .next s.silent
  | .fault f => .fault f
  | .refused r => .refused r

/-- A command word: the operation it decodes to, or the refusal of rule R83. -/
def runCommand (w : Command) (s : State) : Host.Outcome State Fault Refusal :=
  match decode w with
  | .ok i => exec i s
  | .error _ => .next s.refuse

/-- Run one event from the state that has taken it. -/
def runEvent (e : Event) (s : State) : Host.Outcome State Fault Refusal :=
  match e with
  | .reset => .next (s.toReset Config.params)
  | .crossing => unanswered (exec .zcedge s)
  | .tick => unanswered (exec .tick s)
  | .command w => runCommand w s
  | .idle => .next s.silent

end Sys2Proof.Machine
end

