-- ==== Sys2Proof/Machine/Step.lean ====
section
/-! DEFINITION. One step: the next event of the input pins, as one atomic operation (`00_scope.md` rule R8,
`30_encoding.md` rule R92). -/

namespace Sys2Proof.Machine

/-- One step. A low `rst_n` resets; a pin event runs its operation without a response; a command runs with one; with
nothing asserted no state element changes. DESIGN CHOICE, safe: one event a step (log entry 4). -/
def step (s : State) : Host.Outcome State Fault Refusal := runEvent (nextEvent s.pins) s.takeEvent

/-- The state with a clock put in front that presents the command word of `w` and nothing else. -/
def State.withFetchWord (s : State) (nbits w : Nat) : State :=
  { s with pins := .ofCommand (tableCommand nbits w) :: s.pins }

end Sys2Proof.Machine
end

