-- ==== Sys2Proof/Safety.lean ====
section
/-! DEFINITION. The terms the statements use: the invariant of the reachable states, what a step that resets is, runs
of one operation repeated, and the duty property of a pattern table. -/

namespace Sys2Proof.Machine

/-! ### The invariant -/

/-- The modulator's ranges (`10_state.md` rule R27, `42_modulator.md` rule R140); a staged forced duty is at most 120
as well (rule R137). -/
structure ModulatorInv (m : ModulatorState) : Prop where
  duty : m.dutyReq.toNat ≤ 120
  forced : ∀ d, m.forced = some d → d.toNat ≤ 120
  staged : m.fcVal.toNat ≤ 120
  mode : m.powerMode.toNat ≤ 8
  index : m.crossingIndex.toNat ≤ 8
  shortFrame : m.offsetPhase = true → m.crossingIndex.toNat ≤ 7
  remainder : m.remainder.toNat ≤ 14
  pins : m.opto0 = m.optoStatus ∧ m.opto1 = m.optoStatus

/-- The registry's invariants over one state (`40_fault_registry.md` rule R112). -/
structure RegistryInv (P : Params) (fr : RegistryState) : Prop where
  nodup : fr.faults.Nodup
  bounded : fr.faults.length ≤ P.faultCap
  nonzero : (0 : U8) ∉ fr.faults

/-- The relays are what the status says (`43_relay_control.md` rule R172): only CTRL and reset change either. -/
def RelaysFollowStatus (r : RelayState) : Prop :=
  (r.relay0, r.relay1) =
    match r.status with
    | .running => (true, true)
    | .standbyHeat => (true, true)
    | .lowFlow => if r.lowflowSel then (false, true) else (true, false)
    | _ => (false, false)

/-- `0 ≤ integral ≤ INTEGRAL_LIMIT`, and `integral` is no NaN (rules R22, R192). -/
def IntegralInRange (P : Params) (bits : Word) : Prop :=
  ∃ x, f32OfBits bits = some x ∧ x.lt F32Num.zero = false ∧ (integralLimit P).lt x = false

/-- What every reachable state satisfies. -/
structure Invariant (P : Params) (s : State) : Prop where
  modulator : ModulatorInv s.pm
  registry : RegistryInv P s.fr
  relays : RelaysFollowStatus s.rc
  integral : IntegralInRange P s.rc.integral
  mode : s.set.mode.toNat < P.nModes

/-! ### The conditions of a control cycle, said of the state it starts from -/

/-- The states that permit output (rule R131). -/
def Heats (st : Status) : Prop := st = .running ∨ st = .lowFlow ∨ st = .standbyHeat

/-- `over` (rule R159): the outlet is detected and above CEILING[MODE]. -/
def OutletOver (P : Params) (s : State) : Prop :=
  s.inp.temps.outlet.detected = true ∧ (P.ceiling s.set.mode).toInt < s.inp.temps.outlet.temp.toInt

/-- The channel is valid and its rise exceeds DRYFIRE_RISE_TH (rules R152, R154). -/
def RisesTooFast (P : Params) (s : State) (ch : Channel) : Prop :=
  (s.inp.temps.get ch).detected = true ∧
    P.dryfireRiseTh <
      if (s.det.history.get ch).prevValid = true then
        (s.inp.temps.get ch).temp.toInt - (s.det.history.get ch).tPrev.toInt
      else 0

/-- The channel is valid and above SCALE_TEMP_HIGH (rule R156). -/
def ChamberHot (P : Params) (s : State) (ch : Channel) : Prop :=
  (s.inp.temps.get ch).detected = true ∧ P.scaleTempHigh.toInt < (s.inp.temps.get ch).temp.toInt

/-- `hot` of a bank under the configuration `cfg` (rules R94, R156). -/
def BankHot (P : Params) (s : State) (cfg : ChamberCfg) : Bank → Prop
  | .bank0 =>
    ChamberHot P s .chamber0 ∨ ChamberHot P s .chamber1 ∨
      (cfg ≠ .four ∧ (ChamberHot P s .chamber2 ∨ ChamberHot P s .chamber3)) ∨
      (cfg = .two ∧ s.inp.avgDiffErr = true)
  | .bank1 => ChamberHot P s .chamber2 ∨ ChamberHot P s .chamber3

/-- Standby heat is wanted (rule R161): enabled, no dry-fire wait pending, and some valid chamber below
STANDBY_TARGET. -/
def WantsStandby (P : Params) (s : State) : Prop :=
  s.set.standbyEn = true ∧ s.rc.dryFireWaitTimer = 0 ∧
    ∃ ch ∈ [Channel.chamber0, .chamber1, .chamber2, .chamber3],
      (s.inp.temps.get ch).detected = true ∧ (s.inp.temps.get ch).temp.toInt < P.standbyTarget.toInt

/-- The heating state that flow leads to: LowFlow when it is low, Running otherwise. -/
def statusByFlow (s : State) : Status := if s.inp.flowLow then .lowFlow else .running

/-- CTRL under the parameter set `P` answers the state `t`; with the machine's own parameters that is what `exec`
answers. The statements about CTRL are said of every parameter set of rule R5. -/
def CtrlAnswers (P : Params) (s t : State) : Prop :=
  opCtrl P s = t ∧ (P = Config.params → exec .ctrl s = .next t)

/-- The dry-fire transition acts in the cycle that leads from `s` to `t`: the dry-fire is confirmed and the cycle started in
a heating state (rule R157). -/
def DryFireActs (P : Params) (s t : State) : Prop := Heats s.rc.status ∧ P.confirmN ≤ t.det.dryfireConfirm.toNat

/-! ### Correct rounding -/

/-- `y` is (−1)^neg · m · 2^−(149 + j) rounded to binary32, to nearest with ties to even (rule R190): below the overflow
threshold (2^25 − 1) · 2^252 units of 2^−149 no finite pattern is nearer and, of two equally near, the even one is taken;
from the threshold on it is an infinity. -/
def CorrectlyRounded (neg : Bool) (m j : Nat) (y : F32Num) : Prop :=
  (m < (2 ^ 25 - 1) * 2 ^ (252 + j) →
    ∃ p < 0x7F800000, y = .fin neg (patternMag p) ∧
      ∀ q < 0x7F800000,
        let near := ((patternMag p * 2 ^ j : Nat) : Int) - m
        let other := ((patternMag q * 2 ^ j : Nat) : Int) - m
        near.natAbs ≤ other.natAbs ∧ (near.natAbs = other.natAbs → q ≠ p → p % 2 = 0)) ∧
  ((2 ^ 25 - 1) * 2 ^ (252 + j) ≤ m → y = .inf neg)

/-! ### Steps and runs -/

/-- The next step resets the block: `rst_n` is low, or the next event is the command SRESET (rule R250). -/
def TakesReset (s : State) : Prop :=
  nextEvent s.pins = .reset ∨ nextEvent s.pins = .command (encode .sreset)

/-- `i` executed `n` times. -/
def repeatOp (i : Instr) : Nat → State → Host.Outcome State Fault Refusal
  | 0, s => .next s
  | n + 1, s =>
    match repeatOp i n s with
    | .next t => exec i t
    | .fault f => .fault f
    | .refused r => .refused r

/-- The number of crossings of the frame in progress: 8 when `offset_phase` is 1, 9 when it is 0 (rule R133). -/
def frameLength (offsetPhase : Bool) : Nat := if offsetPhase then 8 else 9

/-- The number of ON slots of a frame of row `m` and length `n`. -/
def onSlots (pattern : Nat → Nat → Bool) (m n : Nat) : Nat := ((List.range n).filter (pattern m)).length

/-- The duty property of a pattern table (`42_modulator.md` rule R141): two consecutive frames that start with
remainder `r` under the constant duty `d` have `round(17·d/120)` ON slots, give or take one. -/
def DutyProperty (pattern : Nat → Nat → Bool) : Prop :=
  ∀ d ≤ 120, ∀ r ≤ 14, ∀ ph : Bool,
    let on := onSlots pattern ((d + r) / 15) (frameLength ph) +
      onSlots pattern ((d + (d + r) % 15) / 15) (frameLength !ph)
    on ≤ (17 * d + 60) / 120 + 1 ∧ (17 * d + 60) / 120 ≤ on + 1

end Sys2Proof.Machine
end

