-- ==== Sys2Proof/WellFormed.lean ====
section
/-! DEFINITION. Which operations have operands in the range their rules allow (`30_encoding.md` rule R83 (c)). The
machine refuses every other one, with a response and no state change; the range depends on the parameters FAULT_CAP
and N_MODES. -/

namespace Sys2Proof

open Sys2Proof.Machine

/-- The operands of a WRREG are legal: a mapped RW register, and a MODE value below N_MODES (rules R67, R202). -/
def wrregLegal (P : Params) (a : U8) (v : Word) : Bool :=
  match Reg.ofAddr P a with
  | none => false
  | some .mode => decide ((v.extractLsb' 0 8).toNat < P.nModes)
  | some r => r.writable

/-- Rule R83 (c): every operand is in the range its rule allows. -/
def Instr.wellFormed (P : Params) : Instr → Bool
  | .nop => true
  | .rdreg a => (Reg.ofAddr P a).isSome
  | .wrreg a v => wrregLegal P a v
  | .sreset => true
  | .freport c => decide (c ≠ 0)
  | .fclear c => decide (c ≠ 0)
  | .fexists c => decide (c ≠ 0)
  | .fcount => true
  | .thchk ch => decide (ch.toNat ≤ 5)
  | .zcedge => true
  | .xcross => true
  | .setduty _ => true
  | .setforce _ => true
  | .clrforce => true
  | .ctrl => true
  | .tick => true

end Sys2Proof
end

