-- ==== Sys2Proof/Certificates/Slice0/Obligations.lean ====
section
/-! DEFINITION. The statements about the model, each from the numbered rules of the spec its docstring names. They are
about `exec` and `step`, the machine with the free parameter set `Config.params`; those about CTRL are said of every
parameter set (`CtrlAnswers`). -/

open Sys2Proof Sys2Proof.Machine

/-! ### Encoding -/

/-- Rules R80 to R82: no bit of an operation is lost by its command word, operands at every value. -/
def Obligations.DecodeInvertsEncode : Prop := ∀ i : Instr, decode (encode i) = .ok i

/-- Rules R80 to R83: a word the decoder accepts is the one word of its operation. -/
def Obligations.EncodeInvertsDecode : Prop := ∀ (w : Command) (i : Instr), decode w = .ok i → encode i = w

/-- Rules R81, R82, R83 (a) and (b): the decoder refuses a word exactly when `op` is not in the map or a field that
must be zero is not. -/
def Obligations.DecoderRefusesExactlyIllegalWords : Prop :=
  ∀ w : Command,
    (∃ e, decode w = .error e) ↔
      (w.toNat / 2 ^ 40 ∉
          [0x00, 0x01, 0x02, 0x03, 0x10, 0x11, 0x12, 0x13, 0x18, 0x20, 0x21, 0x22, 0x23, 0x24, 0x30, 0x40]) ∨
      (w.toNat / 2 ^ 40 ∈ [0x00, 0x03, 0x13, 0x20, 0x21, 0x24, 0x30, 0x40] ∧ w.toNat % 2 ^ 40 ≠ 0) ∨
      (w.toNat / 2 ^ 40 ∈ [0x01, 0x10, 0x11, 0x12, 0x18, 0x22, 0x23] ∧ w.toNat % 2 ^ 32 ≠ 0)

/-- Rule R82, on words written out in section 2.1 of the spec's vectors. -/
def Obligations.SpecWordsDecode : Prop :=
  decode 0x000000000000 = .ok .nop ∧ decode 0x021000000064 = .ok (.wrreg 0x10 100) ∧
    decode 0x102100000000 = .ok (.freport 0x21) ∧ decode 0x180100000000 = .ok (.thchk 1) ∧
    decode 0x222D00000000 = .ok (.setduty 45) ∧ decode 0x300000000000 = .ok .ctrl ∧
    decode 0x400000000000 = .ok .tick

/-! ### The step -/

/-- Rule R8: when the next clock presents a command and nothing else, and the word decodes to `i`, the step is `exec i`
on the state without that clock. (The list of clocks to come is the model's own: log entry 3.) -/
def Obligations.StepRunsTheDecodedCommand : Prop :=
  ∀ (s : State) (w : Command) (ps : List PinSample) (i : Instr),
    s.pins = ⟨true, false, false, true, w⟩ :: ps → decode w = .ok i → step s = exec i { s with pins := ps }

/-- Rules R9 and R92: the pin events of one clock run in the order ZCEDGE, TICK, command, the pin events without a
response; a clock with nothing asserted, and a block to which nothing is presented, leave every state element as it was.
(That each event takes a step of its own and what an idle clock leaves on the response port are the model's choices: log
entries 4 and 5.) -/
def Obligations.PinEventsRunInOrder : Prop :=
  (∀ s : State, s.pins = [] → step s = .next { s with rsp := none }) ∧
  ∀ (s : State) (p : PinSample) (ps : List PinSample), s.pins = p :: ps → p.rstN = true →
    (p.zcEvt = true →
      ∃ t, exec .zcedge
          { s with pins := if p.tick1ms || p.cmdValid then { p with zcEvt := false } :: ps else ps } = .next t ∧
        step s = .next { t with rsp := none }) ∧
    (p.zcEvt = false → p.tick1ms = true →
      ∃ t, exec .tick { s with pins := if p.cmdValid then { p with tick1ms := false } :: ps else ps } = .next t ∧
        step s = .next { t with rsp := none }) ∧
    (p.zcEvt = false → p.tick1ms = false → p.cmdValid = true →
      ∀ i, decode p.cmd = .ok i → step s = exec i { s with pins := ps }) ∧
    (p.zcEvt = false → p.tick1ms = false → p.cmdValid = false → step s = .next { s with pins := ps, rsp := none })

/-- Rules R55, R203 and R250: a low `rst_n` puts every state element at its reset value and accepts nothing else of that
clock; SRESET does the same to the state. (What becomes of the clocks to come and of the response port: log entries 5
and 6.) -/
def Obligations.ResetByPinAndByCommand : Prop :=
  (∀ (s : State) (p : PinSample) (ps : List PinSample), s.pins = p :: ps → p.rstN = false →
      step s = .next { State.reset with pins := ps }) ∧
    ∀ s : State, exec .sreset s = .next { State.reset with pins := s.pins, rsp := some ⟨false, 0⟩ }

/-- Rule R83: a command word that is no operation changes no state element and is answered with `rsp_err`. -/
def Obligations.IllegalWordIsRefused : Prop :=
  ∀ (s : State) (w : Command) (ps : List PinSample) (e : Reject),
    s.pins = ⟨true, false, false, true, w⟩ :: ps → decode w = .error e →
      step s = .next { s with pins := ps, rsp := some ⟨true, 0⟩ }

/-- Rules R83 and R89: every operation is answered; with an operand out of its range it changes nothing and is refused,
otherwise it is accepted. -/
def Obligations.RefusedExactlyWhenIllFormed : Prop :=
  ∀ (i : Instr) (s : State), ∃ t, exec i s = .next t ∧
    (i.wellFormed Config.params = false → t = { s with rsp := some ⟨true, 0⟩ }) ∧
    (i.wellFormed Config.params = true → ∃ v, t.rsp = some ⟨false, v⟩)

/-- Rule R83 (c): which operands are in range. FAULT_CAP and N_MODES are the parameters of rule R5. -/
def Obligations.OperandRanges : Prop :=
  (∀ c : U8, (Instr.freport c).wellFormed Config.params = decide (c.toNat ≠ 0) ∧
      (Instr.fclear c).wellFormed Config.params = decide (c.toNat ≠ 0) ∧
      (Instr.fexists c).wellFormed Config.params = decide (c.toNat ≠ 0) ∧
      (Instr.thchk c).wellFormed Config.params = decide (c.toNat ≤ 5)) ∧
    (∀ a : U8, (Instr.rdreg a).wellFormed Config.params = true ↔
      a.toNat ≤ 0x0D ∨ (0x10 ≤ a.toNat ∧ a.toNat ≤ 0x17) ∨ a.toNat = 0x20 ∨ (0x28 ≤ a.toNat ∧ a.toNat ≤ 0x2D) ∨
        (0x30 ≤ a.toNat ∧ a.toNat ≤ 0x35) ∨ (0x40 ≤ a.toNat ∧ a.toNat < 0x40 + Config.params.faultCap) ∨
        (0x50 ≤ a.toNat ∧ a.toNat ≤ 0x55) ∨ (0x58 ≤ a.toNat ∧ a.toNat ≤ 0x5D)) ∧
    ∀ (a : U8) (v : Word), (Instr.wrreg a v).wellFormed Config.params = true ↔
      a.toNat = 0x10 ∨ (a.toNat = 0x11 ∧ v.toNat % 256 < Config.params.nModes) ∨
        (0x12 ≤ a.toNat ∧ a.toNat ≤ 0x17) ∨ a.toNat = 0x20 ∨ (0x28 ≤ a.toNat ∧ a.toNat ≤ 0x2D) ∨
        (0x30 ≤ a.toNat ∧ a.toNat ≤ 0x35)

/-! ### System operations and the register space -/

/-- Rule R200: NOP, the all-zero word, changes nothing; a command with `op = 0` and any other bit set is refused. -/
def Obligations.NopOnlyAnswersZero : Prop :=
  (∀ s : State, exec .nop s = .next { s with rsp := some ⟨false, 0⟩ }) ∧ encode .nop = 0 ∧
    ∀ (s : State) (w : Command), w.toNat / 2 ^ 40 = 0 → w ≠ 0 →
      step { s with pins := ⟨true, false, false, true, w⟩ :: s.pins } = .next { s with rsp := some ⟨true, 0⟩ }

/-- Rule R30: the fields of STATUS, that reading it changes nothing and that writing it is refused. -/
def Obligations.RdregStatusFields : Prop :=
  ∀ s : State, (∀ v : Word, exec (.wrreg 0x00 v) s = .next { s with rsp := some ⟨true, 0⟩ }) ∧
    ∃ w : Word, exec (.rdreg 0x00) s = .next { s with rsp := some ⟨false, w⟩ } ∧
    w.extractLsb' 0 4 = s.rc.status.code ∧ w.extractLsb' 4 4 = s.rc.previousStatus.code ∧
    w.getLsbD 8 = s.rc.relay0 ∧ w.getLsbD 9 = s.rc.relay1 ∧ w.getLsbD 10 = s.pm.opto0 ∧
    w.getLsbD 11 = s.pm.opto1 ∧ w.getLsbD 12 = s.pm.optoStatus ∧ w.getLsbD 13 = s.pm.zcPending ∧
    w.getLsbD 14 = s.rc.shutdownFlag ∧ w.getLsbD 15 = s.rc.lowflowSel ∧
    w.extractLsb' 16 2 = s.det.chamberCfg.code ∧ w.getLsbD 18 = s.det.banks.bank0.bankLock ∧
    w.getLsbD 19 = s.det.banks.bank1.bankLock ∧ w.getLsbD 20 = s.fr.overflow ∧ w.extractLsb' 21 11 = 0

/-- Rules R31 and R32: the fields of PMSTATE and FORCE, which are read-only. (In states that no run reaches, where
`power_mode` or `crossing_index` is above 15, the cut to the 4 bits of its field is the model's choice: log entry 8.) -/
def Obligations.RdregModulatorFields : Prop :=
  ∀ s : State,
    (∀ a ∈ [0x01, 0x02], ∀ v : Word, exec (.wrreg a v) s = .next { s with rsp := some ⟨true, 0⟩ }) ∧
    (∃ w : Word, exec (.rdreg 0x01) s = .next { s with rsp := some ⟨false, w⟩ } ∧
      w.extractLsb' 0 8 = s.pm.dutyReq ∧ w.extractLsb' 8 8 = s.pm.remainder ∧
      w.extractLsb' 16 4 = s.pm.powerMode.setWidth 4 ∧ w.extractLsb' 20 4 = s.pm.crossingIndex.setWidth 4 ∧
      w.getLsbD 24 = s.pm.offsetPhase ∧ w.extractLsb' 25 7 = 0) ∧
    ∃ w : Word, exec (.rdreg 0x02) s = .next { s with rsp := some ⟨false, w⟩ } ∧
      w.extractLsb' 0 8 = s.pm.forced.getD 0 ∧ w.getLsbD 8 = s.pm.forced.isSome ∧ w.extractLsb' 9 7 = 0 ∧
      w.extractLsb' 16 8 = s.pm.fcVal ∧ w.getLsbD 24 = s.pm.fcEn ∧ w.getLsbD 25 = s.pm.fcPending ∧
      w.extractLsb' 26 6 = 0

/-- Rules R33 to R37: the timers, INTEGRAL, CYCLES, CONFIRM and SCALE0/1, which are read-only. -/
def Obligations.RdregControlFields : Prop :=
  ∀ s : State,
    (∀ a ∈ [0x03, 0x04, 0x05, 0x06, 0x07, 0x08, 0x09, 0x0A, 0x0B], ∀ v : Word,
      exec (.wrreg a v) s = .next { s with rsp := some ⟨true, 0⟩ }) ∧
    exec (.rdreg 0x03) s = .next { s with rsp := some ⟨false, s.rc.shutdownCounter.setWidth 32⟩ } ∧
    exec (.rdreg 0x04) s = .next { s with rsp := some ⟨false, s.rc.errorWaitCounter.setWidth 32⟩ } ∧
    exec (.rdreg 0x05) s = .next { s with rsp := some ⟨false, s.rc.dryFireWaitTimer.setWidth 32⟩ } ∧
    exec (.rdreg 0x06) s = .next { s with rsp := some ⟨false, s.rc.tempWaitTimer.setWidth 32⟩ } ∧
    exec (.rdreg 0x07) s = .next { s with rsp := some ⟨false, s.rc.integral⟩ } ∧
    (∃ w : Word, exec (.rdreg 0x08) s = .next { s with rsp := some ⟨false, w⟩ } ∧
      w.extractLsb' 0 16 = s.det.cycleCount ∧ w.extractLsb' 16 16 = s.ctrlCnt) ∧
    (∃ w : Word, exec (.rdreg 0x09) s = .next { s with rsp := some ⟨false, w⟩ } ∧
      w.extractLsb' 0 8 = s.det.dryfireConfirm ∧ w.extractLsb' 8 8 = s.det.iovConfirm ∧
      w.extractLsb' 16 8 = s.det.revConfirm ∧ w.extractLsb' 24 8 = 0) ∧
    (∃ w : Word, exec (.rdreg 0x0A) s = .next { s with rsp := some ⟨false, w⟩ } ∧
      w.extractLsb' 0 8 = s.det.banks.bank0.scaleConfirm ∧ w.extractLsb' 8 8 = s.det.banks.bank0.scaleCnt ∧
      w.extractLsb' 16 16 = 0) ∧
    ∃ w : Word, exec (.rdreg 0x0B) s = .next { s with rsp := some ⟨false, w⟩ } ∧
      w.extractLsb' 0 8 = s.det.banks.bank1.scaleConfirm ∧ w.extractLsb' 8 8 = s.det.banks.bank1.scaleCnt ∧
      w.extractLsb' 16 16 = 0

/-- Rules R38, R39, R48, R49 and R50: the register views of the registry and of the per-channel state, which are
read-only. (In states that no run reaches, where the registry holds more than 255 codes, the cut of its length to the 8
bits of FCOUNT is the model's choice: log entry 8.) -/
def Obligations.RdregRegistryAndChannelFields : Prop :=
  ∀ s : State,
    (∀ a : U8, a.toNat = 0x0C ∨ a.toNat = 0x0D ∨ (0x40 ≤ a.toNat ∧ a.toNat ≤ 0x4F) ∨
        (0x50 ≤ a.toNat ∧ a.toNat ≤ 0x55) ∨ (0x58 ≤ a.toNat ∧ a.toNat ≤ 0x5D) →
      ∀ v : Word, exec (.wrreg a v) s = .next { s with rsp := some ⟨true, 0⟩ }) ∧
    (∃ w : Word, exec (.rdreg 0x0C) s = .next { s with rsp := some ⟨false, w⟩ } ∧
      w.toNat = s.fr.faults.length % 256) ∧
    (∃ w : Word, exec (.rdreg 0x0D) s = .next { s with rsp := some ⟨false, w⟩ } ∧
      (∀ ch : Channel, w.getLsbD ch.toNat = (s.th.get ch).openBit.fault ∧
        w.getLsbD (8 + ch.toNat) = (s.th.get ch).shortBit.fault) ∧
      w.extractLsb' 6 2 = 0 ∧ w.extractLsb' 14 18 = 0) ∧
    (∀ i < 16, exec (.rdreg (BitVec.ofNat 8 (0x40 + i))) s =
      if i < Config.params.faultCap then
        .next { s with rsp := some ⟨false, (s.fr.faults.getD i 0).setWidth 32⟩ }
      else .next { s with rsp := some ⟨true, 0⟩ }) ∧
    ∀ ch : Channel,
      (∃ w : Word, exec (.rdreg (BitVec.ofNat 8 (0x50 + ch.toNat))) s = .next { s with rsp := some ⟨false, w⟩ } ∧
        w.extractLsb' 0 16 = (s.det.history.get ch).tPrev ∧ w.getLsbD 16 = (s.det.history.get ch).prevValid ∧
        w.extractLsb' 17 15 = 0) ∧
      ∃ w : Word, exec (.rdreg (BitVec.ofNat 8 (0x58 + ch.toNat))) s = .next { s with rsp := some ⟨false, w⟩ } ∧
        w.extractLsb' 0 8 = (s.th.get ch).openBit.deb ∧ w.extractLsb' 8 8 = (s.th.get ch).shortBit.deb ∧
        w.extractLsb' 16 16 = 0

/-- Rules R40 to R44: writing and reading the settings. -/
def Obligations.SettingsRegisters : Prop :=
  ∀ (s : State) (v : Word),
    exec (.wrreg 0x10 v) s =
      .next { s with set := { s.set with target := v.extractLsb' 0 16 }, rsp := some ⟨false, 0⟩ } ∧
    exec (.rdreg 0x10) s = .next { s with rsp := some ⟨false, s.set.target.setWidth 32⟩ } ∧
    exec (.wrreg 0x11 v) s =
      (if v.toNat % 256 < Config.params.nModes then
        .next { s with set := { s.set with mode := v.extractLsb' 0 8 }, rsp := some ⟨false, 0⟩ }
      else .next { s with rsp := some ⟨true, 0⟩ }) ∧
    exec (.rdreg 0x11) s = .next { s with rsp := some ⟨false, s.set.mode.setWidth 32⟩ } ∧
    exec (.wrreg 0x12 v) s =
      .next { s with set := { s.set with units := v.getLsbD 0 }, rsp := some ⟨false, 0⟩ } ∧
    exec (.rdreg 0x12) s = .next { s with rsp := some ⟨false, if s.set.units then 1 else 0⟩ } ∧
    exec (.wrreg 0x13 v) s =
      .next { s with set := { s.set with standbyEn := v.getLsbD 0 }, rsp := some ⟨false, 0⟩ } ∧
    exec (.rdreg 0x13) s = .next { s with rsp := some ⟨false, if s.set.standbyEn then 1 else 0⟩ } ∧
    exec (.wrreg 0x14 v) s = .next { s with set := { s.set with kp := v }, rsp := some ⟨false, 0⟩ } ∧
    exec (.rdreg 0x14) s = .next { s with rsp := some ⟨false, s.set.kp⟩ } ∧
    exec (.wrreg 0x15 v) s = .next { s with set := { s.set with ki := v }, rsp := some ⟨false, 0⟩ } ∧
    exec (.rdreg 0x15) s = .next { s with rsp := some ⟨false, s.set.ki⟩ } ∧
    exec (.wrreg 0x16 v) s = .next { s with set := { s.set with kdRise := v }, rsp := some ⟨false, 0⟩ } ∧
    exec (.rdreg 0x16) s = .next { s with rsp := some ⟨false, s.set.kdRise⟩ } ∧
    exec (.wrreg 0x17 v) s = .next { s with set := { s.set with kdFall := v }, rsp := some ⟨false, 0⟩ } ∧
    exec (.rdreg 0x17) s = .next { s with rsp := some ⟨false, s.set.kdFall⟩ }

/-- Rules R45 to R47: writing and reading the input registers. -/
def Obligations.InputRegisters : Prop :=
  ∀ (s : State) (v : Word),
    exec (.wrreg 0x20 v) s =
      .next
        { s with
          inp :=
            { s.inp with
              flowPresent := v.getLsbD 0
              flowLow := v.getLsbD 1
              reverseFlow := v.getLsbD 2
              avgDiffErr := v.getLsbD 3 }
          rsp := some ⟨false, 0⟩ } ∧
    (∃ w : Word, exec (.rdreg 0x20) s = .next { s with rsp := some ⟨false, w⟩ } ∧
      w.getLsbD 0 = s.inp.flowPresent ∧ w.getLsbD 1 = s.inp.flowLow ∧ w.getLsbD 2 = s.inp.reverseFlow ∧
      w.getLsbD 3 = s.inp.avgDiffErr ∧ w.extractLsb' 4 28 = 0) ∧
    ∀ ch : Channel,
      exec (.wrreg (BitVec.ofNat 8 (0x28 + ch.toNat)) v) s =
        .next
          { s with
            inp := { s.inp with temps := s.inp.temps.set ch ⟨v.extractLsb' 0 16, v.getLsbD 16⟩ }
            rsp := some ⟨false, 0⟩ } ∧
      exec (.wrreg (BitVec.ofNat 8 (0x30 + ch.toNat)) v) s =
        .next
          { s with
            inp := { s.inp with counts := s.inp.counts.set ch ⟨v.extractLsb' 0 16, v.getLsbD 16⟩ }
            rsp := some ⟨false, 0⟩ } ∧
      (∃ w : Word, exec (.rdreg (BitVec.ofNat 8 (0x28 + ch.toNat))) s = .next { s with rsp := some ⟨false, w⟩ } ∧
        w.extractLsb' 0 16 = (s.inp.temps.get ch).temp ∧ w.getLsbD 16 = (s.inp.temps.get ch).detected ∧
        w.extractLsb' 17 15 = 0) ∧
      ∃ w : Word, exec (.rdreg (BitVec.ofNat 8 (0x30 + ch.toNat))) s = .next { s with rsp := some ⟨false, w⟩ } ∧
        w.extractLsb' 0 16 = (s.inp.counts.get ch).count ∧ w.getLsbD 16 = (s.inp.counts.get ch).pinHigh ∧
        w.extractLsb' 17 15 = 0

/-- Rules R64 and R202: a WRREG leaves what every other address reads, and every state element that no RW register
names. -/
def Obligations.WrregChangesOnlyItsRegister : Prop :=
  ∀ (a : U8) (v : Word) (s : State), ∃ t, exec (.wrreg a v) s = .next t ∧
    t.pm = s.pm ∧ t.rc = s.rc ∧ t.det = s.det ∧ t.th = s.th ∧ t.fr = s.fr ∧ t.ctrlCnt = s.ctrlCnt ∧
    t.pins = s.pins ∧
    ∀ b : U8, b ≠ a → ∃ ts tt, exec (.rdreg b) s = .next ts ∧ exec (.rdreg b) t = .next tt ∧ ts.rsp = tt.rsp

/-- Rule R55: the reset value of every state element. (`rsp` and `pins` are no elements of that rule: that both are empty
is the model's choice, log entries 5 and 3.) -/
def Obligations.ResetValues : Prop :=
  State.reset =
    { pm :=
        { dutyReq := 0, forced := none, fcPending := false, fcEn := false, fcVal := 0, powerMode := 0,
          crossingIndex := 0, offsetPhase := false, remainder := 0, opto0 := false, opto1 := false,
          optoStatus := false, zcPending := false }
      rc :=
        { status := .initial, previousStatus := .initial, integral := 0, shutdownCounter := 0,
          errorWaitCounter := 0, dryFireWaitTimer := 0, tempWaitTimer := 0, relay0 := false, relay1 := false,
          lowflowSel := false, shutdownFlag := false }
      det :=
        { cycleCount := 0, chamberCfg := .undetected, history := .const ⟨0, false⟩, dryfireConfirm := 0,
          iovConfirm := 0, revConfirm := 0, banks := .const ⟨0, 0, false⟩ }
      th := .const ⟨⟨false, 0⟩, ⟨false, 0⟩⟩
      fr := { faults := [], overflow := false }
      ctrlCnt := Config.params.ctrlDelay
      set := { target := 0, mode := 0, units := false, standbyEn := false, kp := 0, ki := 0, kdRise := 0, kdFall := 0 }
      inp :=
        { flowPresent := false, flowLow := false, reverseFlow := false, avgDiffErr := false,
          temps := .const ⟨0, false⟩, counts := .const ⟨0, false⟩ }
      rsp := none
      pins := [] }

/-- Rule R204: TICK consumes a pending crossing by XCROSS, then runs CTRL and reloads the prescaler with
CTRL_PERIOD − 1 = 499 when it is 0 and decrements it otherwise; both responses are discarded. The same happens at a
pulse of the pin `tick_1ms`, without a response. -/
def Obligations.TickRunsCrossingThenControl : Prop :=
  ∀ s : State, ∃ x c : State,
    (if s.pm.zcPending = true then exec .xcross { s with pm := { s.pm with zcPending := false } } = .next x
      else x = s) ∧
    (if x.ctrlCnt = 0 then ∃ y, exec .ctrl x = .next y ∧ c = { y with ctrlCnt := 499 }
      else c = { x with ctrlCnt := x.ctrlCnt - 1 }) ∧
    exec .tick s = .next { c with rsp := some ⟨false, 0⟩ } ∧
    step { s with pins := ⟨true, false, false, true, 0x400000000000⟩ :: s.pins } =
      .next { c with rsp := some ⟨false, 0⟩ } ∧
    step { s with pins := ⟨true, false, true, false, 0⟩ :: s.pins } = .next { c with rsp := none }

/-- Rule R205: with `ctrl_cnt` at D, ticks numbered from 0, the control cycle runs at ticks D, D + 500, D + 1000 and so
on: what `cycle_count` and `ctrl_cnt` hold after n ticks. -/
def Obligations.ControlRunsAtDelayAndEveryPeriod : Prop :=
  ∀ (s : State) (n : Nat), ∃ t, repeatOp .tick n s = .next t ∧
    if n ≤ s.ctrlCnt.toNat then t.ctrlCnt.toNat = s.ctrlCnt.toNat - n ∧ t.det.cycleCount = s.det.cycleCount
    else
      t.ctrlCnt.toNat = 499 - (n - 1 - s.ctrlCnt.toNat) % 500 ∧
      t.det.cycleCount.toNat =
        min (s.det.cycleCount.toNat + ((n - 1 - s.ctrlCnt.toNat) / 500 + 1)) 65535

/-! ### The Fault Registry -/

/-- Rules R110 and R113. -/
def Obligations.FreportAppendsOnce : Prop :=
  ∀ (c : U8) (s : State),
    exec (.freport c) s =
      if c = 0 then .next { s with rsp := some ⟨true, 0⟩ }
      else if c ∈ s.fr.faults then .next { s with rsp := some ⟨false, 0⟩ }
      else if s.fr.faults.length = Config.params.faultCap then
        .next { s with fr := { s.fr with overflow := true }, rsp := some ⟨false, 2⟩ }
      else .next { s with fr := { s.fr with faults := s.fr.faults ++ [c] }, rsp := some ⟨false, 1⟩ }

/-- Rules R111, R114 and R87: a Class-B code stays; another present code is removed, the order of the others kept. -/
def Obligations.FclearRemovesUnlessClassB : Prop :=
  ∀ (c : U8) (s : State), s.fr.faults.Nodup →
    exec (.fclear c) s =
      if c = 0 then .next { s with rsp := some ⟨true, 0⟩ }
      else if 6 < c.toNat ∧ c ∈ s.fr.faults then
        .next { s with fr := { s.fr with faults := s.fr.faults.filter (fun d => d ≠ c) }, rsp := some ⟨false, 1⟩ }
      else .next { s with rsp := some ⟨false, 0⟩ }

/-- Rules R115 and R116: the two registry queries, and the view of the count in register FCOUNT. -/
def Obligations.RegistryQueries : Prop :=
  (∀ c : U8, (encode (.fexists c)).toNat = 0x12 * 2 ^ 40 + c.toNat * 2 ^ 32) ∧ encode .fcount = 0x130000000000 ∧
  (∀ (c : U8) (s : State),
      exec (.fexists c) s =
        if c = 0 then .next { s with rsp := some ⟨true, 0⟩ }
        else if c ∈ s.fr.faults then .next { s with rsp := some ⟨false, 1⟩ }
        else .next { s with rsp := some ⟨false, 0⟩ }) ∧
    ∀ s : State, exec .fcount s = .next { s with rsp := some ⟨false, BitVec.ofNat 32 s.fr.faults.length⟩ } ∧
      (s.fr.faults.length ≤ Config.params.faultCap → exec (.rdreg 0x0C) s = exec .fcount s)

/-! ### The thermistor check -/

/-- Rules R120, R121 and R122: classification, debounce, report or clear, and the response of THCHK of one channel; and
that it changes nothing else. -/
def Obligations.ThchkDebouncesAndReports : Prop :=
  ∀ (ch : Channel) (s : State), ∃ t, exec (.thchk (BitVec.ofNat 8 ch.toNat)) s = .next t ∧
    (let cond := decide ((s.inp.counts.get ch).count.toNat < 900);
      (t.th.get ch).openBit =
        if cond = (s.th.get ch).openBit.fault then ⟨cond, 0⟩
        else if (if cond then Config.params.thSetN else Config.params.thClrN) ≤
            min ((s.th.get ch).openBit.deb.toNat + 1) 255 then ⟨cond, 0⟩
        else ⟨!cond, BitVec.ofNat 8 (min ((s.th.get ch).openBit.deb.toNat + 1) 255)⟩) ∧
    (let cond := decide (7506 < (s.inp.counts.get ch).count.toNat) && !(s.inp.counts.get ch).pinHigh;
      (t.th.get ch).shortBit =
        if cond = (s.th.get ch).shortBit.fault then ⟨cond, 0⟩
        else if (if cond then Config.params.thSetN else Config.params.thClrN) ≤
            min ((s.th.get ch).shortBit.deb.toNat + 1) 255 then ⟨cond, 0⟩
        else ⟨!cond, BitVec.ofNat 8 (min ((s.th.get ch).shortBit.deb.toNat + 1) 255)⟩) ∧
    (∃ o u, exec (if (t.th.get ch).openBit.fault then .freport (BitVec.ofNat 8 (0x10 + ch.toNat))
          else .fclear (BitVec.ofNat 8 (0x10 + ch.toNat))) s = .next o ∧
      exec (if (t.th.get ch).shortBit.fault then .freport (BitVec.ofNat 8 (0x18 + ch.toNat))
          else .fclear (BitVec.ofNat 8 (0x18 + ch.toNat))) o = .next u ∧ t.fr = u.fr) ∧
    t.rsp = some ⟨false, BitVec.ofNat 32
      (((t.th.get ch).openBit.fault).toNat + 2 * ((t.th.get ch).shortBit.fault).toNat)⟩ ∧
    (∀ c : Channel, c ≠ ch → t.th.get c = s.th.get c) ∧
    t.pm = s.pm ∧ t.rc = s.rc ∧ t.det = s.det ∧ t.ctrlCnt = s.ctrlCnt ∧ t.set = s.set ∧ t.inp = s.inp ∧
    t.pins = s.pins

/-! ### The phase modulator -/

/-- Rules R130, R136, R137 and R138: the event latch, the duty request, and the staged forced duty. -/
def Obligations.ModulatorCommands : Prop :=
  ∀ s : State,
    exec .zcedge s = .next { s with pm := { s.pm with zcPending := true }, rsp := some ⟨false, 0⟩ } ∧
    (∀ d : U8, exec (.setduty d) s =
      .next
        { s with
          pm := { s.pm with dutyReq := if d.toNat ≤ 120 then d else 120 }
          rsp := some ⟨false, if d.toNat ≤ 120 then d.setWidth 32 else 120⟩ }) ∧
    (∀ d : U8, exec (.setforce d) s =
      .next
        { s with
          pm := { s.pm with fcPending := true, fcEn := true, fcVal := if d.toNat ≤ 120 then d else 120 }
          rsp := some ⟨false, if d.toNat ≤ 120 then d.setWidth 32 else 120⟩ }) ∧
    exec .clrforce s =
      .next { s with pm := { s.pm with fcPending := true, fcEn := false, fcVal := 0 }, rsp := some ⟨false, 0⟩ }

/-- Rules R131 and R135: with any fault, or outside Running, LowFlow and StandbyHeat, XCROSS turns both switches off and
leaves a clean frame. -/
def Obligations.XcrossInhibits : Prop :=
  ∀ s : State,
    s.fr.faults ≠ [] ∨ ¬Heats s.rc.status →
      exec .xcross s =
        .next
          { s with
            pm :=
              { s.pm with
                opto0 := false, opto1 := false, optoStatus := false, crossingIndex := 0, offsetPhase := false,
                remainder := 0, powerMode := 0 }
            rsp := some ⟨false, 0⟩ }

/-- Rules R131, R133 and R134: with no fault in a heating state, XCROSS drives both switches with the table's bit,
advances, and at the completing index starts the next frame with the duty in force quantised; nothing else changes. -/
def Obligations.XcrossDrivesTheTable : Prop :=
  ∀ s : State, s.fr.faults = [] →
    Heats s.rc.status →
    ModulatorInv s.pm →
      ∃ t, exec .xcross s = .next t ∧
        let bit := Config.params.pattern s.pm.powerMode.toNat s.pm.crossingIndex.toNat
        let sum := (s.pm.forced.getD s.pm.dutyReq).toNat + s.pm.remainder.toNat
        t.rsp = some ⟨false, if bit then 1 else 0⟩ ∧
        t.pm.opto0 = bit ∧ t.pm.opto1 = bit ∧ t.pm.optoStatus = bit ∧
        (if s.pm.crossingIndex.toNat = (if s.pm.offsetPhase then 7 else 8) then
          t.pm.crossingIndex.toNat = 0 ∧ t.pm.offsetPhase = !s.pm.offsetPhase ∧
            t.pm.powerMode.toNat = min (sum / 15) 8 ∧
            t.pm.remainder.toNat = sum - 15 * min (sum / 15) 8
        else
          t.pm.crossingIndex.toNat = s.pm.crossingIndex.toNat + 1 ∧ t.pm.offsetPhase = s.pm.offsetPhase ∧
            t.pm.powerMode = s.pm.powerMode ∧ t.pm.remainder = s.pm.remainder) ∧
        t.pm.dutyReq = s.pm.dutyReq ∧ t.pm.forced = s.pm.forced ∧ t.pm.fcPending = s.pm.fcPending ∧
        t.pm.fcEn = s.pm.fcEn ∧ t.pm.fcVal = s.pm.fcVal ∧ t.pm.zcPending = s.pm.zcPending ∧
        t.rc = s.rc ∧ t.det = s.det ∧ t.th = s.th ∧ t.fr = s.fr ∧ t.ctrlCnt = s.ctrlCnt ∧ t.set = s.set ∧
        t.inp = s.inp ∧ t.pins = s.pins

/-- Rules R133 and R143: a permitted frame that starts at index 0 has 9 or 8 crossings by `offset_phase`, drives both
switches and `opto_status` with the columns of the row in force in order, and ends at index 0 with the phase turned. -/
def Obligations.PermittedFrameDrivesItsRow : Prop :=
  ∀ s : State, s.fr.faults = [] →
    Heats s.rc.status →
    s.pm.crossingIndex = 0 → ModulatorInv s.pm →
      (∀ k < frameLength s.pm.offsetPhase, ∃ t, repeatOp .xcross (k + 1) s = .next t ∧
        t.pm.opto0 = Config.params.pattern s.pm.powerMode.toNat k ∧
        t.pm.opto1 = Config.params.pattern s.pm.powerMode.toNat k ∧
        t.pm.optoStatus = Config.params.pattern s.pm.powerMode.toNat k) ∧
      ∃ t, repeatOp .xcross (frameLength s.pm.offsetPhase) s = .next t ∧
        t.pm.crossingIndex = 0 ∧ t.pm.offsetPhase = !s.pm.offsetPhase

/-- Rule R140: over k permitted frames under the constant duty in force d, fifteen times the sum of their modes is
k·d + r0 − rk: the remainder carry loses nothing. -/
def Obligations.RemainderCarryLosesNoDuty : Prop :=
  ∀ (k : Nat) (s : State), s.fr.faults = [] →
    Heats s.rc.status →
    s.pm.crossingIndex = 0 → ModulatorInv s.pm →
      ∃ frame : Nat → State, frame 0 = s ∧
        (∀ j < k, repeatOp .xcross (frameLength (frame j).pm.offsetPhase) (frame j) = .next (frame (j + 1))) ∧
        15 * ((List.range k).map fun j => (frame (j + 1)).pm.powerMode.toNat).sum +
            (frame k).pm.remainder.toNat =
          k * (s.pm.forced.getD s.pm.dutyReq).toNat + s.pm.remainder.toNat

/-- Rule R141, for REF_PATTERN: the reference table has the duty property. It is said for every remainder 0 to 14, which
is more than the rule (log entry 14). -/
def Obligations.RefPatternMeetsTheDutyProperty : Prop := DutyProperty refPattern

/-! ### The control cycle. `t` is the state after CTRL. Registry and detectors are written in steps C0 to C3 only, so
what `t` holds in them is what the later steps of that cycle read. -/

/-- Rules R151 and R174: the cycle count, the latching of the staged forced duty, the history; and what CTRL leaves
alone. -/
def Obligations.CtrlBookkeepingAndHistory : Prop :=
  ∀ s : State, ∃ t, exec .ctrl s = .next t ∧
    t.th = s.th ∧ t.ctrlCnt = s.ctrlCnt ∧ t.set = s.set ∧ t.inp = s.inp ∧ t.pins = s.pins ∧
    t.pm.fcEn = s.pm.fcEn ∧ t.pm.fcVal = s.pm.fcVal ∧ t.pm.powerMode = s.pm.powerMode ∧
    t.pm.crossingIndex = s.pm.crossingIndex ∧ t.pm.offsetPhase = s.pm.offsetPhase ∧
    t.pm.remainder = s.pm.remainder ∧ t.pm.opto0 = s.pm.opto0 ∧ t.pm.opto1 = s.pm.opto1 ∧
    t.pm.optoStatus = s.pm.optoStatus ∧ t.pm.zcPending = s.pm.zcPending ∧
    t.det.cycleCount.toNat = min (s.det.cycleCount.toNat + 1) 65535 ∧
    t.pm.forced =
      (if s.pm.fcPending then (if s.pm.fcEn then some s.pm.fcVal else none) else s.pm.forced) ∧
    t.pm.fcPending = false ∧
    ∀ ch : Channel,
      (t.det.history.get ch).prevValid = (s.inp.temps.get ch).detected ∧
      (t.det.history.get ch).tPrev =
        if (s.inp.temps.get ch).detected then (s.inp.temps.get ch).temp else (s.det.history.get ch).tPrev

/-- Rule R153: the chamber configuration is detected in cycle DETECT_CYCLES, while undetected, and at no other. -/
def Obligations.CtrlDetectsChambersOnce : Prop :=
  ∀ (P : Params) (s : State), ∃ t, CtrlAnswers P s t ∧
    t.det.chamberCfg =
      if min (s.det.cycleCount.toNat + 1) 65535 = P.detectCycles ∧ s.det.chamberCfg = .undetected then
        let n := ([Channel.chamber0, .chamber1, .chamber2, .chamber3].filter
          fun ch => (s.inp.temps.get ch).detected).length
        if 3 ≤ n then .four else if n = 2 then .two else .one
      else s.det.chamberCfg

/-- Rules R154 and R155: the dry-fire, inlet-over-outlet and reverse-flow confirm counters and the shutdown flag. -/
def Obligations.CtrlDetectsDryFireAndShutdown : Prop :=
  ∀ (P : Params) (s : State), ∃ t, CtrlAnswers P s t ∧
    ((∃ ch ∈ [Channel.chamber0, .chamber1, .chamber2, .chamber3], RisesTooFast P s ch) →
      t.det.dryfireConfirm.toNat = min (s.det.dryfireConfirm.toNat + 1) 255) ∧
    ((∀ ch ∈ [Channel.chamber0, .chamber1, .chamber2, .chamber3], ¬RisesTooFast P s ch) →
      t.det.dryfireConfirm.toNat = 0) ∧
    t.det.iovConfirm.toNat =
      (if s.inp.temps.inlet.detected = true ∧ s.inp.temps.outlet.detected = true ∧
          s.inp.temps.outlet.temp.toInt < s.inp.temps.inlet.temp.toInt then
        min (s.det.iovConfirm.toNat + 1) 255
      else 0) ∧
    t.det.revConfirm.toNat = (if s.inp.reverseFlow then min (s.det.revConfirm.toNat + 1) 255 else 0) ∧
    (t.rc.shutdownFlag = true ↔
      P.persistN ≤ t.det.iovConfirm.toNat ∨ P.persistN ≤ t.det.revConfirm.toNat)

/-- Rules R94 and R156: the scale detector of each bank under the configuration of this cycle, the lockout, and the
reports of the locked banks, which are those of FREPORT. (That a bank locked while the configuration is undetected, which
no run reaches, is reported too is the model's choice: log entry 7.) -/
def Obligations.CtrlScaleDetectorLocksABank : Prop :=
  ∀ (P : Params) (s : State), ∃ t, CtrlAnswers P s t ∧
    (∀ b : Bank,
        if t.det.chamberCfg = .four ∨ (b = .bank0 ∧ t.det.chamberCfg ≠ .undetected) then
          (s.inp.flowPresent = true ∧ BankHot P s t.det.chamberCfg b →
            (t.det.banks.get b).scaleConfirm.toNat = min ((s.det.banks.get b).scaleConfirm.toNat + 1) 255) ∧
          (¬(s.inp.flowPresent = true ∧ BankHot P s t.det.chamberCfg b) →
            (t.det.banks.get b).scaleConfirm.toNat = 0) ∧
          (t.det.banks.get b).scaleCnt.toNat =
            (if (t.det.banks.get b).scaleConfirm.toNat = P.confirmN then
              min ((s.det.banks.get b).scaleCnt.toNat + 1) 255
            else (s.det.banks.get b).scaleCnt.toNat) ∧
          ((t.det.banks.get b).bankLock = true ↔
            (s.det.banks.get b).bankLock = true ∨ P.scaleEventLimit.val < (t.det.banks.get b).scaleCnt.toNat)
        else t.det.banks.get b = s.det.banks.get b) ∧
    ∃ o u : State,
      (if t.det.banks.bank0.bankLock then opFreport P 0x30 s = o else o = s) ∧
      (if t.det.banks.bank1.bankLock then opFreport P 0x31 o = u else u = o) ∧ t.fr = u.fr

/-- Rules R28, R158 and R225: a CTRL that finds a code in the registry ends in Error from every state, relays open and
duty request 0. It saves the status it found in `previous_status`, the dry-fire transition of rule R157 having run
before it; every other timer, the integral and the relay selection keep their values, and so does the dry-fire timer
where that transition did not load it. -/
def Obligations.CtrlFaultForcesError : Prop :=
  ∀ (P : Params) (s : State), ∃ t, CtrlAnswers P s t ∧
    (t.fr.faults ≠ [] →
      t.rc.status = .error ∧ t.rc.relay0 = false ∧ t.rc.relay1 = false ∧ t.pm.dutyReq = 0 ∧
      t.rc.shutdownCounter = s.rc.shutdownCounter ∧ t.rc.errorWaitCounter = s.rc.errorWaitCounter ∧
      t.rc.tempWaitTimer = s.rc.tempWaitTimer ∧ t.rc.integral = s.rc.integral ∧
      t.rc.lowflowSel = s.rc.lowflowSel ∧
      (s.rc.status = .error →
        t.rc.previousStatus = s.rc.previousStatus ∧ t.rc.dryFireWaitTimer = s.rc.dryFireWaitTimer) ∧
      (s.rc.status ≠ .error → ¬(Heats s.rc.status ∧ P.confirmN ≤ t.det.dryfireConfirm.toNat) →
        t.rc.previousStatus = s.rc.status ∧ t.rc.dryFireWaitTimer = s.rc.dryFireWaitTimer) ∧
      (Heats s.rc.status ∧ P.confirmN ≤ t.det.dryfireConfirm.toNat →
        t.rc.previousStatus = (if s.rc.status = .standbyHeat then .standbyCool else .dryFireWait) ∧
          t.rc.dryFireWaitTimer = P.dryfireDwell))

/-- Rules R168, R169 and R227: the return from Error through the dwell of ErrorWait. -/
def Obligations.CtrlReturnsThroughErrorWait : Prop :=
  ∀ (P : Params) (s : State), ∃ t, CtrlAnswers P s t ∧
    (s.rc.status = .error → t.fr.faults = [] →
      t.rc.status = .errorWait ∧ t.rc.previousStatus = .error ∧
        t.rc.errorWaitCounter = P.errorWaitDwell) ∧
    (s.rc.status = .errorWait → t.fr.faults = [] →
      t.rc.errorWaitCounter.toNat = s.rc.errorWaitCounter.toNat - 1 ∧
        if s.rc.errorWaitCounter.toNat ≤ 1 then t.rc.status = .initial ∧ t.rc.previousStatus = .errorWait
        else t.rc.status = .errorWait)

/-- Rules R159 and R171: the outlet ceiling forces TempWait from every state but Error and ErrorWait, the dwell being
counted down in the cycle of entry as well and loaded again when it ends with the outlet still over; with the outlet
back in range its end leads to Initial. -/
def Obligations.CtrlCeilingForcesTempWait : Prop :=
  ∀ (P : Params) (s : State), ∃ t, CtrlAnswers P s t ∧
    (t.fr.faults = [] → s.rc.status ≠ .error → s.rc.status ≠ .errorWait → OutletOver P s →
      t.rc.status = .tempWait ∧
        let n := if s.rc.status = .tempWait then s.rc.tempWaitTimer.toNat else P.tempwaitDwell.toNat
        t.rc.tempWaitTimer.toNat = if n ≤ 1 then P.tempwaitDwell.toNat else n - 1) ∧
    (t.fr.faults = [] → s.rc.status = .tempWait → ¬OutletOver P s →
      t.rc.tempWaitTimer.toNat = s.rc.tempWaitTimer.toNat - 1 ∧
        if s.rc.tempWaitTimer.toNat ≤ 1 then t.rc.status = .initial else t.rc.status = .tempWait)

/-- Rules R157, R166, R170 and R176: a dry-fire confirmed in Running or LowFlow loads the dwell and enters DryFireWait,
whose logic runs in the same cycle; in StandbyHeat it loads the dwell and enters StandbyCool, whose logic runs in the
same cycle (with a dwell of 0 and no flow the status it leads to is `CtrlDryFireWithoutDwellRedecides`'s). -/
def Obligations.CtrlDryFireEndsHeating : Prop :=
  ∀ (P : Params) (s : State), ∃ t, CtrlAnswers P s t ∧
    let dwell := P.dryfireDwell.toNat
    (t.fr.faults = [] → ¬OutletOver P s → P.confirmN ≤ t.det.dryfireConfirm.toNat →
      (s.rc.status = .running ∨ s.rc.status = .lowFlow →
        if s.inp.flowPresent then
          t.rc.dryFireWaitTimer.toNat = dwell - 1 ∧
            t.rc.status =
              (if dwell ≤ 1 then statusByFlow s else .dryFireWait)
        else
          t.rc.dryFireWaitTimer.toNat = dwell ∧ t.rc.status = .shutdown ∧ t.rc.previousStatus = .dryFireWait) ∧
      (s.rc.status = .standbyHeat →
        t.rc.dryFireWaitTimer.toNat = dwell ∧
          (s.inp.flowPresent = true → t.rc.status = if dwell = 0 then .running else .dryFireWait) ∧
          (s.inp.flowPresent = false → dwell ≠ 0 → t.rc.status = .standbyCool)))

/-- Rules R162, R163 and R164: the exits of Initial, Running and LowFlow where no override and no dry-fire acts. -/
def Obligations.CtrlLeavesInitialRunningLowFlow : Prop :=
  ∀ (P : Params) (s : State), ∃ t, CtrlAnswers P s t ∧
    (t.fr.faults = [] → ¬OutletOver P s →
      (s.rc.status = .initial →
        t.rc.status =
          if s.inp.flowPresent then (if s.rc.dryFireWaitTimer = 0 then .running else .dryFireWait)
          else .standbyCool) ∧
      (t.det.dryfireConfirm.toNat < P.confirmN → s.rc.status = .running ∨ s.rc.status = .lowFlow →
        t.rc.status =
          (if s.inp.flowPresent = false ∨ t.rc.shutdownFlag = true then .shutdown
          else if s.inp.flowLow then .lowFlow
          else .running) ∧
        (t.rc.status = .shutdown → t.rc.shutdownCounter = P.shutdownGrace) ∧
        t.rc.lowflowSel =
          (if s.rc.status = .running ∧ t.rc.status = .lowFlow then !s.rc.lowflowSel else s.rc.lowflowSel)))

/-- Rules R161, R165, R166, R167 and R170: the exits of Shutdown, StandbyCool, StandbyHeat and DryFireWait where no
override and no dry-fire acts. -/
def Obligations.CtrlLeavesTheWaitingStates : Prop :=
  ∀ (P : Params) (s : State), ∃ t, CtrlAnswers P s t ∧
    (t.fr.faults = [] → ¬OutletOver P s →
      (s.rc.status = .shutdown →
        t.rc.shutdownCounter.toNat = s.rc.shutdownCounter.toNat - 1 ∧
        (1 < s.rc.shutdownCounter.toNat → t.rc.status = .shutdown) ∧
        (s.rc.shutdownCounter.toNat ≤ 1 →
          (s.inp.flowPresent = true → t.rc.status = statusByFlow s) ∧
          (s.inp.flowPresent = false → WantsStandby P s → t.rc.status = .standbyHeat) ∧
          (s.inp.flowPresent = false → ¬WantsStandby P s → t.rc.status = .standbyCool))) ∧
      (s.rc.status = .standbyCool →
        (s.inp.flowPresent = true →
          t.rc.status = if s.rc.dryFireWaitTimer = 0 then .running else .dryFireWait) ∧
        (s.inp.flowPresent = false → WantsStandby P s → t.rc.status = .standbyHeat) ∧
        (s.inp.flowPresent = false → ¬WantsStandby P s → t.rc.status = .standbyCool)) ∧
      (s.rc.status = .standbyHeat → t.det.dryfireConfirm.toNat < P.confirmN →
        (s.inp.flowPresent = true → t.rc.status = statusByFlow s) ∧
        (s.inp.flowPresent = false → WantsStandby P s → t.rc.status = .standbyHeat) ∧
        (s.inp.flowPresent = false → ¬WantsStandby P s → t.rc.status = .standbyCool)) ∧
      (s.rc.status = .dryFireWait →
        (s.inp.flowPresent = false →
          t.rc.status = .shutdown ∧ t.rc.dryFireWaitTimer = s.rc.dryFireWaitTimer) ∧
        (s.inp.flowPresent = true →
          t.rc.dryFireWaitTimer.toNat = s.rc.dryFireWaitTimer.toNat - 1 ∧
            t.rc.status = if s.rc.dryFireWaitTimer.toNat ≤ 1 then statusByFlow s else .dryFireWait)))

/-- Rules R160 and R176 in a whole cycle. `mid` is the status after the dry-fire transition, `c4` the status after the two
overrides, `w` the dry-fire timer after the dry-fire transition. Each change of status saves the status before it; the
timer that a state names is loaded on its entry and counted down by its own logic, and no other rule moves it; the relay
selection turns on entry to LowFlow; a change of status leaves the integral alone. -/
def Obligations.CtrlEnteringLoadsAndSaves : Prop :=
  ∀ (P : Params) (s : State), ∃ t, CtrlAnswers P s t ∧ ∃ (mid c4 : Status) (w : U16),
    (DryFireActs P s t →
      mid = (if s.rc.status = .standbyHeat then .standbyCool else .dryFireWait) ∧ w = P.dryfireDwell) ∧
    (¬DryFireActs P s t → mid = s.rc.status ∧ w = s.rc.dryFireWaitTimer) ∧
    (t.fr.faults ≠ [] → c4 = .error) ∧
    (t.fr.faults = [] → OutletOver P s → mid ≠ .error → mid ≠ .errorWait → c4 = .tempWait) ∧
    (t.fr.faults = [] → ¬OutletOver P s ∨ mid = .error ∨ mid = .errorWait → c4 = mid) ∧
    t.rc.previousStatus =
      (if t.rc.status ≠ c4 then c4
      else if c4 ≠ mid then mid
      else if mid ≠ s.rc.status then s.rc.status
      else s.rc.previousStatus) ∧
    t.rc.lowflowSel =
      (if t.rc.status = .lowFlow ∧ c4 ≠ .lowFlow then !s.rc.lowflowSel else s.rc.lowflowSel) ∧
    t.rc.shutdownCounter.toNat =
      (if t.rc.status = .shutdown ∧ c4 ≠ .shutdown then P.shutdownGrace.toNat
      else if c4 = .shutdown then s.rc.shutdownCounter.toNat - 1
      else s.rc.shutdownCounter.toNat) ∧
    t.rc.errorWaitCounter.toNat =
      (if t.rc.status = .errorWait ∧ c4 ≠ .errorWait then P.errorWaitDwell.toNat
      else if c4 = .errorWait then s.rc.errorWaitCounter.toNat - 1
      else s.rc.errorWaitCounter.toNat) ∧
    t.rc.dryFireWaitTimer.toNat =
      (if c4 = .dryFireWait ∧ s.inp.flowPresent = true then w.toNat - 1 else w.toNat) ∧
    (c4 ≠ .tempWait → t.rc.tempWaitTimer = s.rc.tempWaitTimer) ∧
    (c4 = .tempWait →
      let n := if mid = .tempWait then s.rc.tempWaitTimer.toNat else P.tempwaitDwell.toNat
      (OutletOver P s → t.rc.tempWaitTimer.toNat = if n ≤ 1 then P.tempwaitDwell.toNat else n - 1) ∧
        (¬OutletOver P s → t.rc.tempWaitTimer.toNat = n - 1)) ∧
    (t.rc.status ≠ c4 ∨ c4 ≠ mid ∨ mid ≠ s.rc.status → t.rc.integral = s.rc.integral)

/-- Rules R157, R161 and R166: the case of a confirmed dry-fire that `CtrlDryFireEndsHeating` leaves open. With a dwell of
0 there is no wait pending, so StandbyCool, entered from StandbyHeat without flow, may want standby heat again in the same
cycle. -/
def Obligations.CtrlDryFireWithoutDwellRedecides : Prop :=
  ∀ (P : Params) (s : State), ∃ t, CtrlAnswers P s t ∧
    (t.fr.faults = [] → ¬OutletOver P s → P.confirmN ≤ t.det.dryfireConfirm.toNat → s.rc.status = .standbyHeat →
      s.inp.flowPresent = false → P.dryfireDwell = 0 →
      t.rc.previousStatus = (if t.rc.status = .standbyHeat then .standbyCool else .standbyHeat) ∧
      (WantsStandby P { s with rc := { s.rc with dryFireWaitTimer := 0 } } → t.rc.status = .standbyHeat) ∧
      (¬WantsStandby P { s with rc := { s.rc with dryFireWaitTimer := 0 } } → t.rc.status = .standbyCool))

/-- Rules R192, R197 and R160: CTRL moves the integral only where the PID step runs with a valid outlet: no fault, no
ceiling, no dry-fire, flow and no shutdown flag, in Running without low flow or in LowFlow with it. -/
def Obligations.CtrlIntegralMovesOnlyInThePidStep : Prop :=
  ∀ (P : Params) (s : State), ∃ t, CtrlAnswers P s t ∧
    (t.rc.integral = s.rc.integral ∨
      (t.fr.faults = [] ∧ ¬OutletOver P s ∧ t.det.dryfireConfirm.toNat < P.confirmN ∧
        s.inp.flowPresent = true ∧ t.rc.shutdownFlag = false ∧ s.inp.temps.outlet.detected = true ∧
        ((s.rc.status = .running ∧ s.inp.flowLow = false) ∨ (s.rc.status = .lowFlow ∧ s.inp.flowLow = true))))

/-- Rules R172 and R173: relays and duty request by the status at the end of the cycle. In a cycle that ends in Running or
LowFlow without a PID step, because it changed the status or a dry-fire acted, the duty request keeps its value; where the
PID step ran it is `PidStepSetsTheDuty`'s. -/
def Obligations.CtrlRelaysAndDutyFollowStatus : Prop :=
  ∀ (P : Params) (s : State), ∃ t, CtrlAnswers P s t ∧ RelaysFollowStatus t.rc ∧
    t.rsp = some ⟨false, t.rc.status.code.setWidth 32⟩ ∧
    (t.rc.status = .standbyHeat → t.pm.dutyReq.toNat = P.standbyDuty.val) ∧
    (t.rc.status ≠ .standbyHeat → t.rc.status ≠ .running → t.rc.status ≠ .lowFlow → t.pm.dutyReq = 0) ∧
    (t.rc.status = .running ∨ t.rc.status = .lowFlow → t.rc.status ≠ s.rc.status ∨ DryFireActs P s t →
      t.pm.dutyReq = s.pm.dutyReq)

/-- Rules R191 to R198, in binary32 arithmetic: the PID step of a Running or LowFlow cycle that stays in its state. -/
def Obligations.PidStepSetsTheDuty : Prop :=
  ∀ (P : Params) (s : State), ∃ t, CtrlAnswers P s t ∧
    (t.fr.faults = [] → ¬OutletOver P s →
      t.det.dryfireConfirm.toNat < P.confirmN →
      s.inp.flowPresent = true → t.rc.shutdownFlag = false →
      (s.rc.status = .running ∧ s.inp.flowLow = false) ∨ (s.rc.status = .lowFlow ∧ s.inp.flowLow = true) →
      t.rc.status = s.rc.status ∧
      (s.inp.temps.outlet.detected = false → t.pm.dutyReq = 0 ∧ t.rc.integral = s.rc.integral) ∧
      (s.inp.temps.outlet.detected = true →
        let e := fmul (fOfInt (s.set.target.toInt - s.inp.temps.outlet.temp.toInt)) (f32OfBits 0x3F000000)
        let r := fOfInt
          (if s.det.history.outlet.prevValid then
            s.inp.temps.outlet.temp.toInt - s.det.history.outlet.tPrev.toInt
          else 0)
        let zero := f32OfBits 0x00000000
        let i := fclamp (fadd (f32OfBits s.rc.integral) e) (.fin false 0) (integralLimit P)
        let u1 := fadd (fmul (f32OfBits s.set.kp) e) (fmul (f32OfBits s.set.ki) (some i))
        let u2 :=
          if flt zero r then fadd u1 (fmul (f32OfBits s.set.kdRise) r)
          else if flt r zero then fadd u1 (fmul (f32OfBits s.set.kdFall) r)
          else u1
        let u3 :=
          if flt (f32OfBits P.preburnErr) e && flt r (f32OfBits P.preburnRate) then
            fadd u2 (fsub (f32OfBits P.preburnBoost) (fmul (f32OfBits P.preburnDamp) r))
          else u2
        t.rc.integral = i.toBits ∧
          t.pm.dutyReq.toNat = ftrunc (fclamp u3 (.fin false 0) (.fin false (120 * 2 ^ 149)))))

/-- Rules R28 and R175: from Error the only exit is ErrorWait, and from ErrorWait the only exits are Initial and Error,
for every step that does not reset. -/
def Obligations.ErrorIsLeftOnlyThroughErrorWait : Prop :=
  ∀ s t : State, step s = .next t → ¬TakesReset s →
    (s.rc.status = .error → t.rc.status = .error ∨ t.rc.status = .errorWait) ∧
    (s.rc.status = .errorWait →
      t.rc.status = .errorWait ∨ t.rc.status = .initial ∨ t.rc.status = .error)

/-! ### Binary32 -/

/-- Rule R190: rounding `m · 2^−(149 + j)` to binary32 finds the nearest finite value and, of two equally near, the one
whose significand is even, unless it overflows. -/
def Obligations.RoundingIsNearestEven : Prop :=
  ∀ (m j : Nat), roundPattern m j < 0x7F800000 →
    ∀ p < 0x7F800000,
      let near := ((patternMag (roundPattern m j) * 2 ^ j : Nat) : Int) - m
      let other := ((patternMag p * 2 ^ j : Nat) : Int) - m
      near.natAbs ≤ other.natAbs ∧
        (near.natAbs = other.natAbs → p ≠ roundPattern m j → roundPattern m j % 2 = 0)

/-- Rule R190: `fadd`, `fsub` and `fmul` of finite values are the exact sum, difference and product correctly rounded, a
zero having the sign IEEE 754 gives it; then the infinities and NaN. -/
def Obligations.BinaryArithmeticIsCorrectlyRounded : Prop :=
  (∀ (a b : Bool) (m n : Nat),
    let x : Int := if a then -m else m
    let y : Int := if b then -n else n
    (if x + y = 0 then fadd (some (.fin a m)) (some (.fin b n)) = some (.fin (a && b) 0)
      else ∃ z, fadd (some (.fin a m)) (some (.fin b n)) = some z ∧
        CorrectlyRounded (decide (x + y < 0)) (x + y).natAbs 0 z) ∧
    (if x - y = 0 then fsub (some (.fin a m)) (some (.fin b n)) = some (.fin (a && !b) 0)
      else ∃ z, fsub (some (.fin a m)) (some (.fin b n)) = some z ∧
        CorrectlyRounded (decide (x - y < 0)) (x - y).natAbs 0 z) ∧
    (∃ z, fmul (some (.fin a m)) (some (.fin b n)) = some z ∧ CorrectlyRounded (a ^^ b) (m * n) 149 z) ∧
    fadd (some (.inf a)) (some (.fin b n)) = some (.inf a) ∧ fadd (some (.fin b n)) (some (.inf a)) = some (.inf a) ∧
    fsub (some (.inf a)) (some (.fin b n)) = some (.inf a) ∧
    fsub (some (.fin b n)) (some (.inf a)) = some (.inf !a) ∧
    fmul (some (.inf a)) (some (.fin b n)) = (if n = 0 then none else some (.inf (a ^^ b))) ∧
    fmul (some (.fin b n)) (some (.inf a)) = if n = 0 then none else some (.inf (a ^^ b))) ∧
  (∀ a b : Bool,
    fadd (some (.inf a)) (some (.inf b)) = (if a = b then some (.inf a) else none) ∧
    fsub (some (.inf a)) (some (.inf b)) = (if a = b then none else some (.inf a)) ∧
    fmul (some (.inf a)) (some (.inf b)) = some (.inf (a ^^ b))) ∧
  ∀ x : F32,
    fadd none x = none ∧ fadd x none = none ∧ fsub none x = none ∧ fsub x none = none ∧ fmul none x = none ∧
      fmul x none = none

/-- Rule R190: the comparison (false on a NaN, the two zeros equal), the clamp (a NaN goes to the lower end) and the
integer part of a number in 0..120. -/
def Obligations.BinaryComparisonClampAndTruncation : Prop :=
  (∀ x : F32, flt none x = false ∧ flt x none = false) ∧
  (∀ (a b : Bool) (m n : Nat),
    (flt (some (.fin a m)) (some (.fin b n)) = true ↔
      (if a then -(m : Int) else (m : Int)) < if b then -(n : Int) else (n : Int)) ∧
    flt (some (.inf a)) (some (.inf b)) = (a && !b) ∧ flt (some (.inf a)) (some (.fin b n)) = a ∧
    flt (some (.fin a m)) (some (.inf b)) = !b) ∧
  (∀ lo hi : F32Num, fclamp none lo hi = lo ∧
    ∀ x : F32Num,
      fclamp (some x) lo hi =
        if flt (some x) (some lo) then lo else if flt (some hi) (some x) then hi else x) ∧
  ftrunc (.fin true 0) = 0 ∧
  ∀ m ≤ 120 * 2 ^ 149,
    ftrunc (.fin false m) * 2 ^ 149 ≤ m ∧ m < (ftrunc (.fin false m) + 1) * 2 ^ 149

/-- Rules R190 and R93: the value of a pattern by its sign, exponent and fraction, in units 2^−149; a value's pattern is
found again; integers are exact. -/
def Obligations.BinaryPatternsRoundTrip : Prop :=
  (∀ x : Word,
    let e := (x.extractLsb' 23 8).toNat
    let f := (x.extractLsb' 0 23).toNat
    f32OfBits x =
      if e = 255 then (if f = 0 then some (.inf (x.getLsbD 31)) else none)
      else if e = 0 then some (.fin (x.getLsbD 31) f)
      else some (.fin (x.getLsbD 31) ((2 ^ 23 + f) * 2 ^ (e - 1)))) ∧
  (∀ (x : Word) (n : F32Num), f32OfBits x = some n → n.toBits = x) ∧
    ∀ n : Int, n.natAbs ≤ 65535 → fOfInt n = some (.fin (decide (n < 0)) (n.natAbs * 2 ^ 149))

/-! ### The machine as a whole -/

/-- Rules R27, R112, R172 and R22 at reset. -/
def Obligations.ResetMeetsTheInvariant : Prop := Invariant Config.params State.reset

/-- Rules R22, R27, R112, R140, R172: every step keeps the invariant, from every state that has it. -/
def Obligations.StepKeepsTheInvariant : Prop :=
  ∀ s t : State, Invariant Config.params s → step s = .next t → Invariant Config.params t

/-- Rules R112, R203 and R250: no step but a reset removes a Class-B code, lifts a bank lock, clears `fr_overflow` or
changes a detected chamber configuration. -/
def Obligations.StickyStateLeavesOnlyByReset : Prop :=
  ∀ s t : State, step s = .next t → ¬TakesReset s →
    (∀ c : U8, 1 ≤ c.toNat → c.toNat ≤ 6 → c ∈ s.fr.faults → c ∈ t.fr.faults) ∧
    (s.fr.overflow = true → t.fr.overflow = true) ∧
    (∀ b : Bank, (s.det.banks.get b).bankLock = true → (t.det.banks.get b).bankLock = true) ∧
    (s.det.chamberCfg ≠ .undetected → t.det.chamberCfg = s.det.chamberCfg)

/-- Rule R112: no step changes the relative order of two codes that are present before and after it. -/
def Obligations.StepKeepsTheOrderOfCodes : Prop :=
  ∀ s t : State, s.fr.faults.Nodup → step s = .next t →
    s.fr.faults.filter (fun c => decide (c ∈ t.fr.faults)) = t.fr.faults.filter (fun c => decide (c ∈ s.fr.faults))

/-- Rule R264: the switches and the output-state flag change only in XCROSS and reset, relays and status only in CTRL
and reset; a TICK changes them only where it runs XCROSS (a pending crossing) or CTRL (`ctrl_cnt` at 0). -/
def Obligations.OutputsMoveOnlyInTheirOperations : Prop :=
  ∀ (i : Instr) (s : State), i ≠ .sreset → ∃ t, exec i s = .next t ∧
    (i ≠ .xcross → ¬(i = .tick ∧ s.pm.zcPending = true) →
      t.pm.opto0 = s.pm.opto0 ∧ t.pm.opto1 = s.pm.opto1 ∧ t.pm.optoStatus = s.pm.optoStatus) ∧
    (i ≠ .ctrl → ¬(i = .tick ∧ s.ctrlCnt = 0) → t.rc = s.rc)

/-- Rule R42: no rule but the access of its own register reads UNITS: a step from two states that differ in UNITS alone
leads to states that differ in UNITS alone. -/
def Obligations.UnitsFlagIsNeverRead : Prop :=
  ∀ (s t : State) (u : Bool), step s = .next t → nextEvent s.pins ≠ .command (encode (.rdreg 0x12)) →
    ∃ u', step { s with set := { s.set with units := u } } = .next { t with set := { t.set with units := u' } }

/-- Rule R268: no rule reads `previous_status`, but for its view in STATUS. -/
def Obligations.PreviousStatusIsNeverRead : Prop :=
  ∀ (s t : State) (q : Status), step s = .next t → nextEvent s.pins ≠ .command (encode (.rdreg 0x00)) →
    ∃ q', step { s with rc := { s.rc with previousStatus := q } } =
      .next { t with rc := { t.rc with previousStatus := q' } }

/-- Rules R8 and R205: every step completes, from every state. -/
def Obligations.EveryStepCompletes : Prop := ∀ s : State, ∃ t, step s = .next t
end

