-- ==== Sys2Proof/Laws/Channels.lean ====
section
/-! SUPPORT. The small lemmas of channels and banks: reading after writing, and channel numbers. -/

namespace Sys2Proof.Machine

@[simp] theorem PerChannel.get_set_self {α : Type} (x : PerChannel α) (ch : Channel) (v : α) :
    (x.set ch v).get ch = v := by cases ch <;> rfl

theorem PerChannel.get_set_of_ne {α : Type} (x : PerChannel α) {c ch : Channel} (v : α) (h : c ≠ ch) :
    (x.set ch v).get c = x.get c := by
  cases c <;> cases ch <;> first | rfl | exact absurd rfl h

@[simp] theorem PerChannel.get_build {α : Type} (f : Channel → α) (ch : Channel) :
    (PerChannel.build f).get ch = f ch := by cases ch <;> rfl

@[simp] theorem PerChannel.get_const {α : Type} (v : α) (ch : Channel) : (PerChannel.const v).get ch = v := by
  cases ch <;> rfl

@[simp] theorem PerBank.get_build {α : Type} (f : Bank → α) (b : Bank) : (PerBank.build f).get b = f b := by
  cases b <;> rfl

@[simp] theorem PerBank.get_const {α : Type} (v : α) (b : Bank) : (PerBank.const v).get b = v := by cases b <;> rfl

@[simp] theorem PerBank.build_bank0 {α : Type} (f : Bank → α) : (PerBank.build f).bank0 = f .bank0 := rfl

@[simp] theorem PerBank.build_bank1 {α : Type} (f : Bank → α) : (PerBank.build f).bank1 = f .bank1 := rfl

theorem Channel.toNat_lt (ch : Channel) : ch.toNat < 6 := by cases ch <;> decide

@[simp] theorem Channel.ofNat?_toNat (ch : Channel) : Channel.ofNat? ch.toNat = some ch := by cases ch <;> rfl

theorem Channel.ofNat?_eq_none {n : Nat} (h : 5 < n) : Channel.ofNat? n = none := by
  match n, h with
  | _ + 6, _ => rfl

theorem Channel.ofNat?_eq_some {n : Nat} {ch : Channel} (h : Channel.ofNat? n = some ch) : n = ch.toNat := by
  match n, h with
  | 0, h => cases h; rfl
  | 1, h => cases h; rfl
  | 2, h => cases h; rfl
  | 3, h => cases h; rfl
  | 4, h => cases h; rfl
  | 5, h => cases h; rfl
  | _ + 6, h => cases h

theorem Channel.isSome_ofNat? (n : Nat) : (Channel.ofNat? n).isSome = decide (n ≤ 5) := by
  match n with
  | 0 => rfl
  | 1 => rfl
  | 2 => rfl
  | 3 => rfl
  | 4 => rfl
  | 5 => rfl
  | _ + 6 => rw [Channel.ofNat?_eq_none (by omega)]; simp

end Sys2Proof.Machine
end

