-- ==== Sys2Proof/Laws/Ops.lean ====
section
/-! SUPPORT. What the shared operations of `Machine/Ops.lean` and `Machine/Arith.lean` can do, said once each. -/

namespace Sys2Proof.Machine

/-! ### Integer arithmetic -/

@[simp] theorem sat8Inc_toNat (x : U8) : (sat8Inc x).toNat = min (x.toNat + 1) 255 := by
  simp only [sat8Inc, BitVec.toNat_ofNat]; omega

@[simp] theorem sat16Inc_toNat (x : U16) : (sat16Inc x).toNat = min (x.toNat + 1) 65535 := by
  simp only [sat16Inc, BitVec.toNat_ofNat]; omega

theorem confirmStep_toNat (cond : Bool) (x : U8) :
    (confirmStep cond x).toNat = if cond then min (x.toNat + 1) 255 else 0 := by
  cases cond <;> simp [confirmStep]

@[simp] theorem countDown_toNat (t : U16) : (countDown t).toNat = t.toNat - 1 := by
  unfold countDown
  split <;> bv_omega

theorem countDown_eq_zero (t : U16) : countDown t = 0 ↔ t.toNat ≤ 1 := by
  rw [← BitVec.toNat_inj, countDown_toNat]; simp; omega

theorem capDuty_eq (d : U8) : capDuty d = if d.toNat ≤ 120 then d else 120 := by
  unfold capDuty Config.dutyMax
  split
  · rename_i h; rw [Nat.min_eq_left h, BitVec.ofNat_toNat, BitVec.setWidth_eq]
  · rename_i h; rw [Nat.min_eq_right (by omega)]; rfl

theorem capDuty_le (d : U8) : (capDuty d).toNat ≤ 120 := by
  rw [capDuty_eq]; split <;> simp_all

/-! ### The Fault Registry -/

/-- Rule R110: a report leaves the registry, sets the overflow bit, or appends the code. -/
theorem frReport_cases (P : Params) (fr : RegistryState) (c : U8) :
    (c ∈ fr.faults ∧ frReport P fr c = (fr, 0)) ∨
      (c ∉ fr.faults ∧ fr.faults.length = P.faultCap ∧ frReport P fr c = ({ fr with overflow := true }, 2)) ∨
      (c ∉ fr.faults ∧ fr.faults.length ≠ P.faultCap ∧
        frReport P fr c = ({ fr with faults := fr.faults ++ [c] }, 1)) := by
  unfold frReport
  split
  · exact .inl ⟨‹_›, rfl⟩
  · split
    · exact .inr (.inl ⟨‹_›, ‹_›, rfl⟩)
    · exact .inr (.inr ⟨‹_›, ‹_›, rfl⟩)

/-- Rule R111: a clear leaves the registry, or removes a present code that is not of Class B. -/
theorem frClear_cases (fr : RegistryState) (c : U8) :
    ((c ∈ Config.classB ∨ c ∉ fr.faults) ∧ frClear fr c = (fr, 0)) ∨
      (c ∉ Config.classB ∧ c ∈ fr.faults ∧
        frClear fr c = ({ fr with faults := fr.faults.erase c }, 1)) := by
  unfold frClear
  split
  · exact .inl ⟨.inl ‹_›, rfl⟩
  · split
    · exact .inr ⟨‹_›, ‹_›, rfl⟩
    · exact .inl ⟨.inr ‹_›, rfl⟩

theorem mem_classB (c : U8) : c ∈ Config.classB ↔ 1 ≤ c.toNat ∧ c.toNat ≤ 6 := by
  revert c; decide

/-- A report keeps every code that is present. -/
theorem mem_frReport_of_mem (P : Params) {fr : RegistryState} {c d : U8} (h : d ∈ fr.faults) :
    d ∈ (frReport P fr c).1.faults := by
  rcases frReport_cases P fr c with ⟨_, e⟩ | ⟨_, _, e⟩ | ⟨_, _, e⟩ <;> rw [e] <;> simp [h]

/-- A clear keeps every code of Class B. -/
theorem mem_frClear_of_mem_classB {fr : RegistryState} {c d : U8} (h : d ∈ fr.faults) (hB : d ∈ Config.classB) :
    d ∈ (frClear fr c).1.faults := by
  rcases frClear_cases fr c with ⟨_, e⟩ | ⟨hc, _, e⟩ <;> rw [e]
  · exact h
  · exact (List.mem_erase_of_ne (fun he : d = c => hc (he ▸ hB))).mpr h

theorem overflow_frReport (P : Params) {fr : RegistryState} {c : U8} (h : fr.overflow = true) :
    (frReport P fr c).1.overflow = true := by
  rcases frReport_cases P fr c with ⟨_, e⟩ | ⟨_, _, e⟩ | ⟨_, _, e⟩ <;> rw [e] <;> simp [h]

@[simp] theorem overflow_frClear (fr : RegistryState) (c : U8) : (frClear fr c).1.overflow = fr.overflow := by
  rcases frClear_cases fr c with ⟨_, e⟩ | ⟨_, _, e⟩ <;> rw [e]

/-- What `frReportIf` leaves of a property that a report keeps. -/
theorem frReportIf_induction {P : Params} {p : RegistryState → Prop} {fr : RegistryState} {c : U8} (b : Bool)
    (h : p fr) (hr : p (frReport P fr c).1) : p (frReportIf P b fr c) := by
  cases b
  · exact h
  · exact hr

theorem faultAny_eq_false (fr : RegistryState) : faultAny fr = false ↔ fr.faults = [] := by
  simp [faultAny]

theorem faultAny_eq_true (fr : RegistryState) : faultAny fr = true ↔ fr.faults ≠ [] := by
  simp [faultAny]

/-! ### The state change -/

@[simp] theorem enter_status (P : Params) (st : Status) (r : RelayState) : (enter P st r).status = st := by
  unfold enter
  split
  · exact Eq.symm ‹_›
  · cases st <;> rfl

theorem enter_self (P : Params) (r : RelayState) : enter P r.status r = r := if_pos rfl

theorem enter_of_ne (P : Params) {st : Status} {r : RelayState} (h : st ≠ r.status) :
    enter P st r = loadOnEntry P st { r with previousStatus := r.status, status := st } := if_neg h

theorem enter_previousStatus (P : Params) (st : Status) (r : RelayState) :
    (enter P st r).previousStatus = if st = r.status then r.previousStatus else r.status := by
  unfold enter
  split
  · rfl
  · cases st <;> rfl

@[simp] theorem enter_integral (P : Params) (st : Status) (r : RelayState) :
    (enter P st r).integral = r.integral := by
  unfold enter
  split
  · rfl
  · cases st <;> rfl

@[simp] theorem enter_dryFireWaitTimer (P : Params) (st : Status) (r : RelayState) :
    (enter P st r).dryFireWaitTimer = r.dryFireWaitTimer := by
  unfold enter
  split
  · rfl
  · cases st <;> rfl

@[simp] theorem enter_shutdownFlag (P : Params) (st : Status) (r : RelayState) :
    (enter P st r).shutdownFlag = r.shutdownFlag := by
  unfold enter
  split
  · rfl
  · cases st <;> rfl

@[simp] theorem enter_relay0 (P : Params) (st : Status) (r : RelayState) : (enter P st r).relay0 = r.relay0 := by
  unfold enter
  split
  · rfl
  · cases st <;> rfl

@[simp] theorem enter_relay1 (P : Params) (st : Status) (r : RelayState) : (enter P st r).relay1 = r.relay1 := by
  unfold enter
  split
  · rfl
  · cases st <;> rfl

theorem enter_shutdownCounter (P : Params) (st : Status) (r : RelayState) :
    (enter P st r).shutdownCounter =
      if st = .shutdown ∧ r.status ≠ .shutdown then P.shutdownGrace else r.shutdownCounter := by
  unfold enter
  split
  · rename_i h; subst h; simp
  · rename_i h; cases st <;> simp [loadOnEntry, Ne.symm h]

theorem enter_errorWaitCounter (P : Params) (st : Status) (r : RelayState) :
    (enter P st r).errorWaitCounter =
      if st = .errorWait ∧ r.status ≠ .errorWait then P.errorWaitDwell else r.errorWaitCounter := by
  unfold enter
  split
  · rename_i h; subst h; simp
  · rename_i h; cases st <;> simp [loadOnEntry, Ne.symm h]

theorem enter_tempWaitTimer (P : Params) (st : Status) (r : RelayState) :
    (enter P st r).tempWaitTimer =
      if st = .tempWait ∧ r.status ≠ .tempWait then P.tempwaitDwell else r.tempWaitTimer := by
  unfold enter
  split
  · rename_i h; subst h; simp
  · rename_i h; cases st <;> simp [loadOnEntry, Ne.symm h]

theorem enter_lowflowSel (P : Params) (st : Status) (r : RelayState) :
    (enter P st r).lowflowSel =
      if st = .lowFlow ∧ r.status ≠ .lowFlow then !r.lowflowSel else r.lowflowSel := by
  unfold enter
  split
  · rename_i h; subst h; simp
  · rename_i h; cases st <;> simp [loadOnEntry, Ne.symm h]

/-! ### The fault path -/

theorem faultOverride_of_nil (P : Params) {s : State} (h : s.fr.faults = []) : faultOverride P s = s := by
  simp [faultOverride, (faultAny_eq_false _).mpr h]

theorem faultOverride_of_ne (P : Params) {s : State} (h : s.fr.faults ≠ []) :
    faultOverride P s = { s with rc := enter P .error s.rc } := by
  simp [faultOverride, (faultAny_eq_true _).mpr h]

/-- `faultOverride` writes the relay state only. -/
theorem faultOverride_frame (P : Params) (s : State) : faultOverride P s = { s with rc := (faultOverride P s).rc } := by
  unfold faultOverride
  split <;> rfl

theorem leaveError_of_ne (P : Params) {fr : RegistryState} (r : RelayState) (h : fr.faults ≠ []) :
    leaveError P fr r = r := by simp [leaveError, (faultAny_eq_true _).mpr h]

theorem leaveError_of_nil (P : Params) {fr : RegistryState} (r : RelayState) (h : fr.faults = []) :
    leaveError P fr r = enter P .errorWait r := by simp [leaveError, (faultAny_eq_false _).mpr h]

end Sys2Proof.Machine
end

