-- ==== Sys2Proof/Laws/Flags.lean ====
section
/-! SUPPORT. Each predicate of `Machine/Flags.lean` against the conditions `Safety.lean` states of a state, and what the
detector steps compute. -/

namespace Sys2Proof.Machine

theorem heating_iff (st : Status) : heating st = true ↔ Heats st := by
  cases st <;> simp [heating, Heats]

theorem permit_iff (s : State) : permit s = true ↔ s.fr.faults = [] ∧ Heats s.rc.status := by
  rw [permit, Bool.and_eq_true, Bool.not_eq_true', faultAny_eq_false, heating_iff]

/-- One evaluation of one fault bit (rule R121), with the counter as a number. -/
theorem debounce_eq (P : Params) (cond : Bool) (b : FaultBit) :
    debounce P cond b =
      if cond = b.fault then ⟨cond, 0⟩
      else if (if cond then P.thSetN else P.thClrN) ≤ min (b.deb.toNat + 1) 255 then ⟨cond, 0⟩
      else ⟨!cond, BitVec.ofNat 8 (min (b.deb.toNat + 1) 255)⟩ := by
  unfold debounce
  by_cases h : cond = b.fault
  · rw [if_neg (by simpa using h), if_pos h, h]
  · have hf : b.fault = !cond := by cases cond <;> cases hb : b.fault <;> simp_all
    rw [if_pos h, if_neg h, ← sat8Inc_toNat, hf]
    rw [BitVec.ofNat_toNat, BitVec.setWidth_eq]

theorem overCeiling_iff (P : Params) (s : State) : overCeiling P s = true ↔ OutletOver P s := by
  rw [overCeiling, Bool.and_eq_true, decide_eq_true_eq]
  rfl

theorem dryFireNow_iff (P : Params) (s : State) :
    dryFireNow P s = true ↔
      ∃ ch ∈ [Channel.chamber0, .chamber1, .chamber2, .chamber3], RisesTooFast P s ch := by
  rw [dryFireNow, List.any_eq_true]
  refine exists_congr fun ch => and_congr_right fun _ => ?_
  simp only [RisesTooFast, valid, rise, temp, Bool.and_eq_true, decide_eq_true_eq]
  refine and_congr_right fun h => ?_
  simp [h]

theorem satisfied_eq_false (P : Params) (s : State) :
    satisfied P s = false ↔
      ∃ ch ∈ [Channel.chamber0, .chamber1, .chamber2, .chamber3],
        (s.inp.temps.get ch).detected = true ∧ (s.inp.temps.get ch).temp.toInt < P.standbyTarget.toInt := by
  rw [satisfied, List.all_eq_false]
  refine exists_congr fun ch => and_congr_right fun _ => ?_
  rw [Bool.not_eq_true, Bool.or_eq_false_iff, Bool.not_eq_false', decide_eq_false_iff_not, not_le]
  rfl

theorem wantStandby_iff (P : Params) (s : State) : wantStandby P s = true ↔ WantsStandby P s := by
  rw [wantStandby, WantsStandby, Bool.and_eq_true, Bool.and_eq_true, Bool.not_eq_true', satisfied_eq_false,
    decide_eq_true_eq]
  exact ⟨fun ⟨⟨h, k⟩, z⟩ => ⟨h, z, k⟩, fun ⟨h, z, k⟩ => ⟨⟨h, k⟩, z⟩⟩

/-- `hot` of a bank that the configuration has (rule R156). -/
theorem hot_iff (P : Params) (s : State) {b : Bank} {chs : List Channel}
    (h : bankChambers s.det.chamberCfg b = some chs) : hot P s chs = true ↔ BankHot P s s.det.chamberCfg b := by
  have hch : ∀ ch, (valid s ch && decide (P.scaleTempHigh.toInt < temp s ch)) = true ↔ ChamberHot P s ch :=
    fun ch => by rw [Bool.and_eq_true, decide_eq_true_eq]; rfl
  rw [hot, Bool.or_eq_true, List.any_eq_true]
  simp only [hch]
  cases hc : s.det.chamberCfg <;> cases b <;> rw [hc] at h <;> cases h <;>
    simp [BankHot, Channel.chambers, or_assoc]

theorem bankChambers_eq_none (cfg : ChamberCfg) (b : Bank) :
    bankChambers cfg b = none ↔ ¬(cfg = .four ∨ (b = .bank0 ∧ cfg ≠ .undetected)) := by
  cases cfg <;> cases b <;> simp [bankChambers]

/-- One cycle of the scale detector (rule R156): a lock is never lifted, and the event count never falls. -/
theorem scaleStep_bankLock (P : Params) (anomaly : Bool) (b : BankState) :
    (scaleStep P anomaly b).bankLock =
      (b.bankLock || decide (P.scaleEventLimit.val < (scaleStep P anomaly b).scaleCnt.toNat)) := rfl

theorem scaleStep_bankLock_of_locked (P : Params) (anomaly : Bool) {b : BankState} (h : b.bankLock = true) :
    (scaleStep P anomaly b).bankLock = true := by rw [scaleStep_bankLock, h, Bool.true_or]

theorem scaleStep_scaleCnt_toNat (P : Params) (anomaly : Bool) (b : BankState) :
    (scaleStep P anomaly b).scaleCnt.toNat =
      if (scaleStep P anomaly b).scaleConfirm.toNat = P.confirmN then min (b.scaleCnt.toNat + 1) 255
      else b.scaleCnt.toNat := by
  unfold scaleStep
  dsimp only
  split <;> simp

end Sys2Proof.Machine
end

