-- ==== Sys2Proof/Laws/Pid.lean ====
section
/-! SUPPORT. The clamps of the PID step: what they answer lies in their bounds, whatever the operand. -/

namespace Sys2Proof.Machine

/-- `fclamp` answers one of its bounds, or its operand between them. -/
theorem fclamp_cases (x : F32) (lo hi : F32Num) :
    fclamp x lo hi = lo ∨ fclamp x lo hi = hi ∨
      ∃ y, x = some y ∧ y.lt lo = false ∧ hi.lt y = false ∧ fclamp x lo hi = y := by
  unfold fclamp
  cases x with
  | none => exact .inl rfl
  | some y =>
    dsimp only
    split
    · exact .inl rfl
    · split
      · exact .inr (.inl rfl)
      · exact .inr (.inr ⟨y, rfl, Bool.eq_false_iff.mpr ‹_›, Bool.eq_false_iff.mpr ‹_›, rfl⟩)

/-- Rule R196: the clamped and truncated result lies in 0..120, for every operand. -/
theorem ftrunc_fclamp_le (u : F32) : ftrunc (fclamp u F32Num.zero F32Num.dutyTop) ≤ 120 := by
  rcases fclamp_cases u F32Num.zero F32Num.dutyTop with e | e | ⟨y, _, _, hhi, e⟩ <;> rw [e]
  · exact Nat.zero_le _
  · simp [ftrunc, F32Num.dutyTop]
  · cases y with
    | inf b => exact Nat.zero_le _
    | fin b m =>
      cases b
      · have h : m ≤ 120 * 2 ^ 149 := by
          have h' : ¬((120 * 2 ^ 149 : Nat) : Int) < (m : Int) := of_decide_eq_false hhi
          omega
        exact Nat.div_le_of_le_mul (by omega)
      · exact Nat.zero_le _

theorem pidConvert_toNat (u : F32) :
    (pidConvert u).toNat = ftrunc (fclamp u F32Num.zero F32Num.dutyTop) := by
  have := ftrunc_fclamp_le u
  rw [pidConvert, BitVec.toNat_ofNat]
  omega

theorem pidConvert_le (u : F32) : (pidConvert u).toNat ≤ 120 := by
  rw [pidConvert_toNat]; exact ftrunc_fclamp_le u

/-- INTEGRAL_LIMIT is never below zero. -/
theorem integralLimit_not_neg (P : Params) : (integralLimit P).lt F32Num.zero = false := by
  unfold integralLimit
  split
  · rfl
  · split
    · rfl
    · exact Bool.eq_false_iff.mpr ‹_›

/-- What the PID step writes and answers (rules R197, R198). -/
theorem pidStep_frame (P : Params) (s : State) :
    (pidStep P s).1 = { s.rc with integral := (pidStep P s).1.integral } ∧ (pidStep P s).2.toNat ≤ 120 := by
  unfold pidStep
  split
  · exact ⟨rfl, pidConvert_le _⟩
  · exact ⟨rfl, Nat.zero_le _⟩

end Sys2Proof.Machine
end

