-- ==== Sys2Proof/Laws/Control.lean ====
section
/-! SUPPORT. What each step C0 to C7 of the control cycle may write, field by field, and where the parts of the state
after the cycle come from. -/

namespace Sys2Proof.Machine

/-! ### C0 to C3, step by step -/

@[simp] theorem bookkeeping_rc (s : State) : (bookkeeping s).rc = s.rc := rfl

@[simp] theorem bookkeeping_th (s : State) : (bookkeeping s).th = s.th := rfl

@[simp] theorem bookkeeping_fr (s : State) : (bookkeeping s).fr = s.fr := rfl

@[simp] theorem bookkeeping_ctrlCnt (s : State) : (bookkeeping s).ctrlCnt = s.ctrlCnt := rfl

@[simp] theorem bookkeeping_set (s : State) : (bookkeeping s).set = s.set := rfl

@[simp] theorem bookkeeping_inp (s : State) : (bookkeeping s).inp = s.inp := rfl

@[simp] theorem bookkeeping_rsp (s : State) : (bookkeeping s).rsp = s.rsp := rfl

@[simp] theorem bookkeeping_pins (s : State) : (bookkeeping s).pins = s.pins := rfl

@[simp] theorem bookkeeping_det (s : State) :
    (bookkeeping s).det = { s.det with cycleCount := sat16Inc s.det.cycleCount } := rfl

/-- C0 latches a staged forced-duty command (rule R151) and leaves the rest of the modulator. -/
theorem bookkeeping_pm (s : State) :
    (bookkeeping s).pm =
      { s.pm with
        forced := if s.pm.fcPending then (if s.pm.fcEn then some s.pm.fcVal else none) else s.pm.forced
        fcPending := false } := by
  obtain ⟨⟨_, _, fcPending⟩⟩ := s
  cases fcPending <;> rfl

@[simp] theorem detectChambers_pm (P : Params) (s : State) : (detectChambers P s).pm = s.pm := by
  unfold detectChambers
  split <;> rfl

@[simp] theorem detectChambers_rc (P : Params) (s : State) : (detectChambers P s).rc = s.rc := by
  unfold detectChambers
  split <;> rfl

@[simp] theorem detectChambers_th (P : Params) (s : State) : (detectChambers P s).th = s.th := by
  unfold detectChambers
  split <;> rfl

@[simp] theorem detectChambers_fr (P : Params) (s : State) : (detectChambers P s).fr = s.fr := by
  unfold detectChambers
  split <;> rfl

@[simp] theorem detectChambers_ctrlCnt (P : Params) (s : State) : (detectChambers P s).ctrlCnt = s.ctrlCnt := by
  unfold detectChambers
  split <;> rfl

@[simp] theorem detectChambers_set (P : Params) (s : State) : (detectChambers P s).set = s.set := by
  unfold detectChambers
  split <;> rfl

@[simp] theorem detectChambers_inp (P : Params) (s : State) : (detectChambers P s).inp = s.inp := by
  unfold detectChambers
  split <;> rfl

@[simp] theorem detectChambers_rsp (P : Params) (s : State) : (detectChambers P s).rsp = s.rsp := by
  unfold detectChambers
  split <;> rfl

@[simp] theorem detectChambers_pins (P : Params) (s : State) : (detectChambers P s).pins = s.pins := by
  unfold detectChambers
  split <;> rfl

/-- C2 writes the chamber configuration only. -/
theorem detectChambers_det (P : Params) (s : State) :
    (detectChambers P s).det =
      { s.det with
        chamberCfg :=
          if s.det.cycleCount.toNat = P.detectCycles ∧ s.det.chamberCfg = .undetected then
            cfgOfCount (validChambers s)
          else s.det.chamberCfg } := by
  unfold detectChambers
  split <;> rfl

@[simp] theorem detectDryFire_pm (P : Params) (s : State) : (detectDryFire P s).pm = s.pm := rfl

@[simp] theorem detectDryFire_rc (P : Params) (s : State) : (detectDryFire P s).rc = s.rc := rfl

@[simp] theorem detectDryFire_th (P : Params) (s : State) : (detectDryFire P s).th = s.th := rfl

@[simp] theorem detectDryFire_fr (P : Params) (s : State) : (detectDryFire P s).fr = s.fr := rfl

@[simp] theorem detectDryFire_ctrlCnt (P : Params) (s : State) : (detectDryFire P s).ctrlCnt = s.ctrlCnt := rfl

@[simp] theorem detectDryFire_set (P : Params) (s : State) : (detectDryFire P s).set = s.set := rfl

@[simp] theorem detectDryFire_inp (P : Params) (s : State) : (detectDryFire P s).inp = s.inp := rfl

@[simp] theorem detectDryFire_rsp (P : Params) (s : State) : (detectDryFire P s).rsp = s.rsp := rfl

@[simp] theorem detectDryFire_pins (P : Params) (s : State) : (detectDryFire P s).pins = s.pins := rfl

@[simp] theorem detectShutdown_pm (P : Params) (s : State) : (detectShutdown P s).pm = s.pm := rfl

@[simp] theorem detectShutdown_th (P : Params) (s : State) : (detectShutdown P s).th = s.th := rfl

@[simp] theorem detectShutdown_fr (P : Params) (s : State) : (detectShutdown P s).fr = s.fr := rfl

@[simp] theorem detectShutdown_ctrlCnt (P : Params) (s : State) : (detectShutdown P s).ctrlCnt = s.ctrlCnt := rfl

@[simp] theorem detectShutdown_set (P : Params) (s : State) : (detectShutdown P s).set = s.set := rfl

@[simp] theorem detectShutdown_inp (P : Params) (s : State) : (detectShutdown P s).inp = s.inp := rfl

@[simp] theorem detectShutdown_rsp (P : Params) (s : State) : (detectShutdown P s).rsp = s.rsp := rfl

@[simp] theorem detectShutdown_pins (P : Params) (s : State) : (detectShutdown P s).pins = s.pins := rfl

@[simp] theorem detectScale_pm (P : Params) (s : State) : (detectScale P s).pm = s.pm := rfl

@[simp] theorem detectScale_rc (P : Params) (s : State) : (detectScale P s).rc = s.rc := rfl

@[simp] theorem detectScale_th (P : Params) (s : State) : (detectScale P s).th = s.th := rfl

@[simp] theorem detectScale_ctrlCnt (P : Params) (s : State) : (detectScale P s).ctrlCnt = s.ctrlCnt := rfl

@[simp] theorem detectScale_set (P : Params) (s : State) : (detectScale P s).set = s.set := rfl

@[simp] theorem detectScale_inp (P : Params) (s : State) : (detectScale P s).inp = s.inp := rfl

@[simp] theorem detectScale_rsp (P : Params) (s : State) : (detectScale P s).rsp = s.rsp := rfl

@[simp] theorem detectScale_pins (P : Params) (s : State) : (detectScale P s).pins = s.pins := rfl

theorem scaleBank_of_none (P : Params) {s : State} {b : Bank} (h : bankChambers s.det.chamberCfg b = none) :
    scaleBank P s b = s.det.banks.get b := by simp [scaleBank, h]

theorem scaleBank_of_some (P : Params) {s : State} {b : Bank} {chs : List Channel}
    (h : bankChambers s.det.chamberCfg b = some chs) :
    scaleBank P s b = scaleStep P (s.inp.flowPresent && hot P s chs) (s.det.banks.get b) := by simp [scaleBank, h]

/-- A bank lock is never lifted by a cycle (rule R156). -/
theorem scaleBank_bankLock_of_locked (P : Params) {s : State} {b : Bank}
    (h : (s.det.banks.get b).bankLock = true) : (scaleBank P s b).bankLock = true := by
  unfold scaleBank
  split
  · exact h
  · exact scaleStep_bankLock_of_locked _ _ h

/-! ### C0 to C3 together -/

@[simp] theorem detectors_th (P : Params) (s : State) : (detectors P s).th = s.th := by simp [detectors]

@[simp] theorem detectors_ctrlCnt (P : Params) (s : State) : (detectors P s).ctrlCnt = s.ctrlCnt := by simp [detectors]

@[simp] theorem detectors_set (P : Params) (s : State) : (detectors P s).set = s.set := by simp [detectors]

@[simp] theorem detectors_inp (P : Params) (s : State) : (detectors P s).inp = s.inp := by simp [detectors]

@[simp] theorem detectors_rsp (P : Params) (s : State) : (detectors P s).rsp = s.rsp := by simp [detectors]

@[simp] theorem detectors_pins (P : Params) (s : State) : (detectors P s).pins = s.pins := by simp [detectors]

@[simp] theorem detectors_pm (P : Params) (s : State) : (detectors P s).pm = (bookkeeping s).pm := by
  simp [detectors]

/-- The detectors write `shutdown_flag` of the relay state only (rule R155). -/
theorem detectors_rc (P : Params) (s : State) :
    (detectors P s).rc =
      { s.rc with
        shutdownFlag :=
          decide (P.persistN ≤ (detectors P s).det.iovConfirm.toNat) ||
            decide (P.persistN ≤ (detectors P s).det.revConfirm.toNat) } := by
  simp [detectors, detectShutdown, detectScale]

@[simp] theorem detectors_history (P : Params) (s : State) : (detectors P s).det.history = s.det.history := by
  simp [detectors, detectScale, detectShutdown, detectDryFire, detectChambers_det]

@[simp] theorem detectors_cycleCount (P : Params) (s : State) :
    (detectors P s).det.cycleCount = sat16Inc s.det.cycleCount := by
  simp [detectors, detectScale, detectShutdown, detectDryFire, detectChambers_det]

/-- The chamber configuration after the detectors (rule R153). -/
theorem detectors_chamberCfg (P : Params) (s : State) :
    (detectors P s).det.chamberCfg =
      if min (s.det.cycleCount.toNat + 1) 65535 = P.detectCycles ∧ s.det.chamberCfg = .undetected then
        cfgOfCount (validChambers s)
      else s.det.chamberCfg := by
  simp [detectors, detectScale, detectShutdown, detectDryFire, detectChambers_det]
  rfl

/-- The scale detector of a bank runs on the banks the cycle starts with, under the configuration of this cycle. -/
theorem detectors_banks (P : Params) (s : State) (b : Bank) :
    (detectors P s).det.banks.get b =
      match bankChambers (detectors P s).det.chamberCfg b with
      | none => s.det.banks.get b
      | some chs =>
        scaleStep P (s.inp.flowPresent && hot P { s with det := { s.det with
          chamberCfg := (detectors P s).det.chamberCfg } } chs) (s.det.banks.get b) := by
  have h : (detectors P s).det.chamberCfg = (detectChambers P (bookkeeping s)).det.chamberCfg := by
    simp [detectors, detectScale, detectShutdown, detectDryFire]
  have hb : (detectors P s).det.banks.get b =
      scaleBank P (detectShutdown P (detectDryFire P (detectChambers P (bookkeeping s)))) b := by
    simp [detectors, detectScale]
  rw [hb, h, scaleBank]
  simp only [detectShutdown, detectDryFire, detectChambers_inp, bookkeeping_inp]
  have hbk : (detectChambers P (bookkeeping s)).det.banks = s.det.banks := by simp [detectChambers_det]
  rw [hbk]
  unfold hot valid temp
  rfl

/-- The detectors report the locked banks and touch the registry in no other way (rule R156). -/
theorem detectors_fr (P : Params) (s : State) :
    (detectors P s).fr =
      frReportIf P (detectors P s).det.banks.bank1.bankLock
        (frReportIf P (detectors P s).det.banks.bank0.bankLock s.fr 0x30) 0x31 := by
  have h : (detectShutdown P (detectDryFire P (detectChambers P (bookkeeping s)))).fr = s.fr := by simp
  unfold detectors detectScale
  rw [h]
  rfl

/-- A rate of rise depends on the inputs and the history only, so it is the same throughout a cycle (rule R152). -/
theorem rise_congr {s t : State} (hi : s.inp = t.inp) (hh : s.det.history = t.det.history) (ch : Channel) :
    rise s ch = rise t ch := by
  unfold rise valid temp
  rw [hi, hh]

/-- The dry-fire condition is that of the state the cycle starts from (rule R154). -/
@[simp] theorem detectors_dryfireConfirm (P : Params) (s : State) :
    (detectors P s).det.dryfireConfirm = confirmStep (dryFireNow P s) s.det.dryfireConfirm := by
  have h : dryFireNow P (detectChambers P (bookkeeping s)) = dryFireNow P s := by
    unfold dryFireNow
    congr 1
    funext ch
    rw [rise_congr (s := detectChambers P (bookkeeping s)) (t := s) (by simp) (by simp [detectChambers_det])]
    simp [valid]
  simp [detectors, detectScale, detectShutdown, detectDryFire, h, detectChambers_det]

@[simp] theorem detectors_iovConfirm (P : Params) (s : State) :
    (detectors P s).det.iovConfirm = confirmStep (inletOverOutlet s) s.det.iovConfirm := by
  have h : inletOverOutlet (detectDryFire P (detectChambers P (bookkeeping s))) = inletOverOutlet s := by
    unfold inletOverOutlet valid temp
    simp only [detectDryFire_inp, detectChambers_inp, bookkeeping_inp]
  simp [detectors, detectScale, detectShutdown, h]
  simp [detectDryFire, detectChambers_det]

@[simp] theorem detectors_revConfirm (P : Params) (s : State) :
    (detectors P s).det.revConfirm = confirmStep s.inp.reverseFlow s.det.revConfirm := by
  simp [detectors, detectScale, detectShutdown]
  simp [detectDryFire, detectChambers_det]

/-! ### C4 -/

@[simp] theorem dryFireTransition_pm (P : Params) (s : State) : (dryFireTransition P s).pm = s.pm := by
  unfold dryFireTransition
  split <;> rfl

@[simp] theorem dryFireTransition_det (P : Params) (s : State) : (dryFireTransition P s).det = s.det := by
  unfold dryFireTransition
  split <;> rfl

@[simp] theorem dryFireTransition_th (P : Params) (s : State) : (dryFireTransition P s).th = s.th := by
  unfold dryFireTransition
  split <;> rfl

@[simp] theorem dryFireTransition_fr (P : Params) (s : State) : (dryFireTransition P s).fr = s.fr := by
  unfold dryFireTransition
  split <;> rfl

@[simp] theorem dryFireTransition_ctrlCnt (P : Params) (s : State) : (dryFireTransition P s).ctrlCnt = s.ctrlCnt := by
  unfold dryFireTransition
  split <;> rfl

@[simp] theorem dryFireTransition_set (P : Params) (s : State) : (dryFireTransition P s).set = s.set := by
  unfold dryFireTransition
  split <;> rfl

@[simp] theorem dryFireTransition_inp (P : Params) (s : State) : (dryFireTransition P s).inp = s.inp := by
  unfold dryFireTransition
  split <;> rfl

@[simp] theorem dryFireTransition_rsp (P : Params) (s : State) : (dryFireTransition P s).rsp = s.rsp := by
  unfold dryFireTransition
  split <;> rfl

@[simp] theorem dryFireTransition_pins (P : Params) (s : State) : (dryFireTransition P s).pins = s.pins := by
  unfold dryFireTransition
  split <;> rfl

@[simp] theorem faultOverride_pm (P : Params) (s : State) : (faultOverride P s).pm = s.pm := by
  unfold faultOverride
  split <;> rfl

@[simp] theorem faultOverride_det (P : Params) (s : State) : (faultOverride P s).det = s.det := by
  unfold faultOverride
  split <;> rfl

@[simp] theorem faultOverride_th (P : Params) (s : State) : (faultOverride P s).th = s.th := by
  unfold faultOverride
  split <;> rfl

@[simp] theorem faultOverride_fr (P : Params) (s : State) : (faultOverride P s).fr = s.fr := by
  unfold faultOverride
  split <;> rfl

@[simp] theorem faultOverride_ctrlCnt (P : Params) (s : State) : (faultOverride P s).ctrlCnt = s.ctrlCnt := by
  unfold faultOverride
  split <;> rfl

@[simp] theorem faultOverride_set (P : Params) (s : State) : (faultOverride P s).set = s.set := by
  unfold faultOverride
  split <;> rfl

@[simp] theorem faultOverride_inp (P : Params) (s : State) : (faultOverride P s).inp = s.inp := by
  unfold faultOverride
  split <;> rfl

@[simp] theorem faultOverride_rsp (P : Params) (s : State) : (faultOverride P s).rsp = s.rsp := by
  unfold faultOverride
  split <;> rfl

@[simp] theorem faultOverride_pins (P : Params) (s : State) : (faultOverride P s).pins = s.pins := by
  unfold faultOverride
  split <;> rfl

@[simp] theorem ceilingOverride_pm (P : Params) (s : State) : (ceilingOverride P s).pm = s.pm := by
  unfold ceilingOverride
  split <;> rfl

@[simp] theorem ceilingOverride_det (P : Params) (s : State) : (ceilingOverride P s).det = s.det := by
  unfold ceilingOverride
  split <;> rfl

@[simp] theorem ceilingOverride_th (P : Params) (s : State) : (ceilingOverride P s).th = s.th := by
  unfold ceilingOverride
  split <;> rfl

@[simp] theorem ceilingOverride_fr (P : Params) (s : State) : (ceilingOverride P s).fr = s.fr := by
  unfold ceilingOverride
  split <;> rfl

@[simp] theorem ceilingOverride_ctrlCnt (P : Params) (s : State) : (ceilingOverride P s).ctrlCnt = s.ctrlCnt := by
  unfold ceilingOverride
  split <;> rfl

@[simp] theorem ceilingOverride_set (P : Params) (s : State) : (ceilingOverride P s).set = s.set := by
  unfold ceilingOverride
  split <;> rfl

@[simp] theorem ceilingOverride_inp (P : Params) (s : State) : (ceilingOverride P s).inp = s.inp := by
  unfold ceilingOverride
  split <;> rfl

@[simp] theorem ceilingOverride_rsp (P : Params) (s : State) : (ceilingOverride P s).rsp = s.rsp := by
  unfold ceilingOverride
  split <;> rfl

@[simp] theorem ceilingOverride_pins (P : Params) (s : State) : (ceilingOverride P s).pins = s.pins := by
  unfold ceilingOverride
  split <;> rfl

@[simp] theorem overrides_pm (P : Params) (s : State) : (overrides P s).pm = s.pm := by simp [overrides]

@[simp] theorem overrides_det (P : Params) (s : State) : (overrides P s).det = s.det := by simp [overrides]

@[simp] theorem overrides_th (P : Params) (s : State) : (overrides P s).th = s.th := by simp [overrides]

@[simp] theorem overrides_fr (P : Params) (s : State) : (overrides P s).fr = s.fr := by simp [overrides]

@[simp] theorem overrides_ctrlCnt (P : Params) (s : State) : (overrides P s).ctrlCnt = s.ctrlCnt := by simp [overrides]

@[simp] theorem overrides_set (P : Params) (s : State) : (overrides P s).set = s.set := by simp [overrides]

@[simp] theorem overrides_inp (P : Params) (s : State) : (overrides P s).inp = s.inp := by simp [overrides]

@[simp] theorem overrides_rsp (P : Params) (s : State) : (overrides P s).rsp = s.rsp := by simp [overrides]

@[simp] theorem overrides_pins (P : Params) (s : State) : (overrides P s).pins = s.pins := by simp [overrides]

/-- With a code in the registry C4 ends in Error, after the dry-fire transition (rules R157, R158). -/
theorem overrides_rc_of_fault (P : Params) {s : State} (h : s.fr.faults ≠ []) :
    (overrides P s).rc = enter P .error (dryFireTransition P s).rc := by
  have hf : faultAny s.fr = true := (faultAny_eq_true _).mpr h
  rw [overrides, ceilingOverride, if_neg (by simp [hf]), faultOverride_of_ne P (by simpa using h)]

/-- With none, override (a) does nothing. -/
theorem overrides_of_no_fault (P : Params) {s : State} (h : s.fr.faults = []) :
    overrides P s = ceilingOverride P (dryFireTransition P s) := by
  rw [overrides, faultOverride_of_nil P (by simpa using h)]

theorem dryFireTransition_cond (P : Params) (s : State) :
    (dryFire P s && heating s.rc.status) = true ↔
      P.confirmN ≤ s.det.dryfireConfirm.toNat ∧ Heats s.rc.status := by
  rw [Bool.and_eq_true, heating_iff, dryFire, decide_eq_true_eq]

/-- Without a confirmed dry-fire in a heating state rule R157 does nothing. -/
theorem dryFireTransition_of_not (P : Params) {s : State}
    (h : ¬(P.confirmN ≤ s.det.dryfireConfirm.toNat ∧ Heats s.rc.status)) : dryFireTransition P s = s :=
  if_neg fun h' => h ((dryFireTransition_cond P s).mp h')

/-- With one it loads the dwell and changes the status. -/
theorem dryFireTransition_of_dryFire (P : Params) {s : State}
    (h : P.confirmN ≤ s.det.dryfireConfirm.toNat ∧ Heats s.rc.status) :
    dryFireTransition P s =
      { s with
        rc :=
          enter P (if s.rc.status = .standbyHeat then .standbyCool else .dryFireWait)
            { s.rc with dryFireWaitTimer := P.dryfireDwell } } :=
  if_pos ((dryFireTransition_cond P s).mpr h)

/-- Rule R159 does nothing in Error and ErrorWait, nor where the outlet is not over the ceiling. -/
theorem ceilingOverride_of_not (P : Params) {s : State}
    (h : ¬OutletOver P s ∨ s.rc.status = .error ∨ s.rc.status = .errorWait) : ceilingOverride P s = s := by
  refine if_neg fun h' => ?_
  simp only [Bool.and_eq_true, decide_eq_true_eq, overCeiling_iff, ne_eq] at h'
  tauto

/-- Elsewhere, with no fault and the outlet over the ceiling, it enters TempWait. -/
theorem ceilingOverride_of_over (P : Params) {s : State} (hf : s.fr.faults = []) (h : OutletOver P s)
    (h1 : s.rc.status ≠ .error) (h2 : s.rc.status ≠ .errorWait) :
    ceilingOverride P s = { s with rc := enter P .tempWait s.rc } := by
  refine if_pos ?_
  simp only [Bool.and_eq_true, decide_eq_true_eq, overCeiling_iff, ne_eq, Bool.not_eq_true', faultAny_eq_false]
  exact ⟨⟨⟨hf, h1⟩, h2⟩, h⟩

/-! ### C5 to C7 -/

/-- C5 leaves `shutdown_flag` and the relays; the relays are C6's. -/
theorem stateLogic_frame (P : Params) (s : State) :
    (stateLogic P s).1.shutdownFlag = s.rc.shutdownFlag ∧ (stateLogic P s).1.relay0 = s.rc.relay0 ∧
      (stateLogic P s).1.relay1 = s.rc.relay1 := by
  have hp := (pidStep_frame P s).1
  unfold stateLogic
  split
  · unfold logicInitial enterOnFlow
    split <;> simp
  · unfold logicRunning
    split
    · simp
    · split
      · simp
      · rw [hp]; simp
  · unfold logicShutdown enterByFlow
    dsimp only
    split
    · split
      · simp
      · split <;> simp
    · simp
  · unfold logicStandbyCool enterOnFlow
    split
    · simp
    · split <;> simp
  · unfold logicStandbyHeat enterByFlow
    split
    · simp
    · split <;> simp
  · unfold logicLowFlow
    split
    · simp
    · split
      · simp
      · rw [hp]; simp
  · unfold leaveError
    split <;> simp
  · unfold leaveErrorWait
    dsimp only
    split <;> simp
  · unfold logicDryFireWait enterByFlow
    split
    · simp
    · dsimp only
      split <;> simp
  · unfold logicTempWait
    dsimp only
    split
    · split <;> simp
    · simp

/-- Where the PID step ran, the state is Running or LowFlow and stays what it is, and `pid_out` is at most 120. -/
theorem stateLogic_pidOut (P : Params) {s : State} {d : U8} (h : (stateLogic P s).2 = some d) :
    (s.rc.status = .running ∨ s.rc.status = .lowFlow) ∧ (stateLogic P s).1.status = s.rc.status ∧
      d.toNat ≤ 120 := by
  have hp := pidStep_frame P s
  unfold stateLogic at h ⊢
  split at h <;> rename_i hs
  case h_2 =>
    simp only [hs]
    unfold logicRunning at h ⊢
    split at h
    · cases h
    · split at h
      · cases h
      · rename_i h1 h2
        cases h
        rw [if_neg h1, if_neg h2, hp.1]
        exact ⟨.inl trivial, hs, hp.2⟩
  case h_6 =>
    simp only [hs]
    unfold logicLowFlow at h ⊢
    split at h
    · cases h
    · split at h
      · cases h
      · rename_i h1 h2
        cases h
        rw [if_neg h1, if_neg h2, hp.1]
        exact ⟨.inr trivial, hs, hp.2⟩
  all_goals cases h

/-- The PID step writes the integral and nothing else. -/
theorem pidStep_rc (P : Params) (s : State) : (pidStep P s).1 = { s.rc with integral := (pidStep P s).1.integral } := by
  unfold pidStep; split <;> rfl

/-- What the logic of one state does to the saved status, the relay selection, the timers and the integral: `r` is the relay
state after it, `s` the state it started from (rules R160, R176). -/
def EntryEffects (P : Params) (s : State) (r : RelayState) : Prop :=
  r.previousStatus = (if r.status = s.rc.status then s.rc.previousStatus else s.rc.status) ∧
  r.lowflowSel = (if r.status = .lowFlow ∧ s.rc.status ≠ .lowFlow then !s.rc.lowflowSel else s.rc.lowflowSel) ∧
  r.shutdownCounter.toNat =
    (if r.status = .shutdown ∧ s.rc.status ≠ .shutdown then P.shutdownGrace.toNat
    else if s.rc.status = .shutdown then s.rc.shutdownCounter.toNat - 1
    else s.rc.shutdownCounter.toNat) ∧
  r.errorWaitCounter.toNat =
    (if r.status = .errorWait ∧ s.rc.status ≠ .errorWait then P.errorWaitDwell.toNat
    else if s.rc.status = .errorWait then s.rc.errorWaitCounter.toNat - 1
    else s.rc.errorWaitCounter.toNat) ∧
  r.dryFireWaitTimer.toNat =
    (if s.rc.status = .dryFireWait ∧ s.inp.flowPresent = true then s.rc.dryFireWaitTimer.toNat - 1
    else s.rc.dryFireWaitTimer.toNat) ∧
  (s.rc.status ≠ .tempWait → r.tempWaitTimer = s.rc.tempWaitTimer) ∧
  (r.status ≠ s.rc.status → r.integral = s.rc.integral)

/-- All that the logic of one state does there. -/
theorem stateLogic_entryEffects (P : Params) (s : State) : EntryEffects P s (stateLogic P s).1 := by
  have hp := pidStep_rc P s
  unfold stateLogic
  split <;> rename_i hs <;> try dsimp only
  · unfold logicInitial enterOnFlow
    repeat' split
    all_goals simp [EntryEffects, enter_previousStatus, enter_lowflowSel, enter_shutdownCounter, enter_errorWaitCounter,
      enter_tempWaitTimer, *]
  · unfold logicRunning
    repeat' split
    all_goals first
      | rw [hp]; simp [EntryEffects, hs]
      | simp [EntryEffects, hs, enter_previousStatus, enter_lowflowSel, enter_shutdownCounter,
          enter_errorWaitCounter, enter_tempWaitTimer]
  · unfold logicShutdown enterByFlow
    simp only [countDown_eq_zero]
    repeat' split
    all_goals simp [EntryEffects, enter_previousStatus, enter_lowflowSel, enter_shutdownCounter, enter_errorWaitCounter,
      enter_tempWaitTimer, *]
  · unfold logicStandbyCool enterOnFlow
    repeat' split
    all_goals simp [EntryEffects, enter_previousStatus, enter_lowflowSel, enter_shutdownCounter, enter_errorWaitCounter,
      enter_tempWaitTimer, *]
  · unfold logicStandbyHeat enterByFlow
    repeat' split
    all_goals simp [EntryEffects, enter_previousStatus, enter_lowflowSel, enter_shutdownCounter, enter_errorWaitCounter,
      enter_tempWaitTimer, *]
  · unfold logicLowFlow
    repeat' split
    all_goals first
      | rw [hp]; simp [EntryEffects, hs]
      | simp [EntryEffects, hs, enter_previousStatus, enter_lowflowSel, enter_shutdownCounter,
          enter_errorWaitCounter, enter_tempWaitTimer]
  · unfold leaveError
    repeat' split
    all_goals simp [EntryEffects, enter_previousStatus, enter_lowflowSel, enter_shutdownCounter, enter_errorWaitCounter,
      enter_tempWaitTimer, *]
  · unfold leaveErrorWait
    simp only [countDown_eq_zero]
    repeat' split
    all_goals simp [EntryEffects, enter_previousStatus, enter_lowflowSel, enter_shutdownCounter, enter_errorWaitCounter,
      enter_tempWaitTimer, *]
  · unfold logicDryFireWait enterByFlow
    cases hf : s.inp.flowPresent
    · simp [EntryEffects, enter_previousStatus, enter_lowflowSel, enter_shutdownCounter, enter_errorWaitCounter,
        enter_tempWaitTimer, hs, hf]
    · simp only [countDown_eq_zero, Bool.not_true, Bool.false_eq_true, if_false]
      repeat' split
      all_goals simp [EntryEffects, enter_previousStatus, enter_lowflowSel, enter_shutdownCounter,
        enter_errorWaitCounter, enter_tempWaitTimer, *]
  · unfold logicTempWait
    simp only [countDown_eq_zero]
    repeat' split
    all_goals simp [EntryEffects, enter_previousStatus, enter_lowflowSel, enter_shutdownCounter, enter_errorWaitCounter,
      enter_tempWaitTimer, *]

/-- The logic of one state moves the integral only where it runs the PID step with a valid outlet (rules R192, R197). -/
theorem stateLogic_integral (P : Params) (s : State) :
    (stateLogic P s).1.integral = s.rc.integral ∨
      (s.inp.flowPresent = true ∧ s.rc.shutdownFlag = false ∧ s.inp.temps.outlet.detected = true ∧
        ((s.rc.status = .running ∧ s.inp.flowLow = false) ∨ (s.rc.status = .lowFlow ∧ s.inp.flowLow = true))) := by
  have hp : (pidStep P s).1.integral = s.rc.integral ∨ s.inp.temps.outlet.detected = true := by
    unfold pidStep; split
    · rename_i h; right; exact h
    · left; rfl
  unfold stateLogic
  split <;> rename_i hs <;> try dsimp only
  · left
    unfold logicInitial enterOnFlow
    repeat' split
    all_goals simp
  · unfold logicRunning
    split
    · left; simp
    · split
      · left; simp
      · rcases hp with h | h
        · left; exact h
        · right; simp_all
  · left
    unfold logicShutdown enterByFlow
    dsimp only
    repeat' split
    all_goals simp
  · left
    unfold logicStandbyCool enterOnFlow
    repeat' split
    all_goals simp
  · left
    unfold logicStandbyHeat enterByFlow
    repeat' split
    all_goals simp
  · unfold logicLowFlow
    split
    · left; simp
    · split
      · left; simp
      · rcases hp with h | h
        · left; exact h
        · right; simp_all
  · left
    unfold leaveError
    repeat' split
    all_goals simp
  · left
    unfold leaveErrorWait
    dsimp only
    repeat' split
    all_goals simp
  · left
    unfold logicDryFireWait enterByFlow
    dsimp only
    repeat' split
    all_goals simp
  · left
    unfold logicTempWait
    dsimp only
    repeat' split
    all_goals simp

@[simp] theorem logicAndOutputs_det (P : Params) (s : State) : (logicAndOutputs P s).det = s.det := rfl

@[simp] theorem logicAndOutputs_th (P : Params) (s : State) : (logicAndOutputs P s).th = s.th := rfl

@[simp] theorem logicAndOutputs_fr (P : Params) (s : State) : (logicAndOutputs P s).fr = s.fr := rfl

@[simp] theorem logicAndOutputs_ctrlCnt (P : Params) (s : State) : (logicAndOutputs P s).ctrlCnt = s.ctrlCnt := rfl

@[simp] theorem logicAndOutputs_set (P : Params) (s : State) : (logicAndOutputs P s).set = s.set := rfl

@[simp] theorem logicAndOutputs_inp (P : Params) (s : State) : (logicAndOutputs P s).inp = s.inp := rfl

@[simp] theorem logicAndOutputs_rsp (P : Params) (s : State) : (logicAndOutputs P s).rsp = s.rsp := rfl

@[simp] theorem logicAndOutputs_pins (P : Params) (s : State) : (logicAndOutputs P s).pins = s.pins := rfl

@[simp] theorem logicAndOutputs_status (P : Params) (s : State) :
    (logicAndOutputs P s).rc.status = (stateLogic P s).1.status := rfl

/-- C6 writes the duty request of the modulator only. -/
theorem logicAndOutputs_pm (P : Params) (s : State) :
    (logicAndOutputs P s).pm =
      { s.pm with
        dutyReq := dutyRequest P (stateLogic P s).1.status (stateLogic P s).2 s.pm.dutyReq } := rfl

/-- Rule R172: the relays after C6. -/
theorem logicAndOutputs_relays (P : Params) (s : State) : RelaysFollowStatus (logicAndOutputs P s).rc := by
  have h : ∀ (st : Status) (b : Bool),
      relaysOf st b =
        match st with
        | .running => (true, true)
        | .standbyHeat => (true, true)
        | .lowFlow => if b then (false, true) else (true, false)
        | _ => (false, false) := by
    intro st b
    cases st <;> cases b <;> rfl
  exact h _ _

@[simp] theorem recordHistory_pm (s : State) : (recordHistory s).pm = s.pm := rfl

@[simp] theorem recordHistory_rc (s : State) : (recordHistory s).rc = s.rc := rfl

@[simp] theorem recordHistory_th (s : State) : (recordHistory s).th = s.th := rfl

@[simp] theorem recordHistory_fr (s : State) : (recordHistory s).fr = s.fr := rfl

@[simp] theorem recordHistory_ctrlCnt (s : State) : (recordHistory s).ctrlCnt = s.ctrlCnt := rfl

@[simp] theorem recordHistory_set (s : State) : (recordHistory s).set = s.set := rfl

@[simp] theorem recordHistory_inp (s : State) : (recordHistory s).inp = s.inp := rfl

@[simp] theorem recordHistory_rsp (s : State) : (recordHistory s).rsp = s.rsp := rfl

@[simp] theorem recordHistory_pins (s : State) : (recordHistory s).pins = s.pins := rfl

/-! ### The cycle -/

@[simp] theorem controlCycle_th (P : Params) (s : State) : (controlCycle P s).th = s.th := by simp [controlCycle]

@[simp] theorem controlCycle_ctrlCnt (P : Params) (s : State) : (controlCycle P s).ctrlCnt = s.ctrlCnt := by simp [controlCycle]

@[simp] theorem controlCycle_set (P : Params) (s : State) : (controlCycle P s).set = s.set := by simp [controlCycle]

@[simp] theorem controlCycle_inp (P : Params) (s : State) : (controlCycle P s).inp = s.inp := by simp [controlCycle]

@[simp] theorem controlCycle_rsp (P : Params) (s : State) : (controlCycle P s).rsp = s.rsp := by simp [controlCycle]

@[simp] theorem controlCycle_pins (P : Params) (s : State) : (controlCycle P s).pins = s.pins := by simp [controlCycle]

/-- The registry after a cycle is the registry after the detectors. -/
theorem controlCycle_fr (P : Params) (s : State) : (controlCycle P s).fr = (detectors P s).fr := by
  simp [controlCycle]

/-- The detector state after a cycle is that after the detectors, with the new history. -/
theorem controlCycle_det (P : Params) (s : State) :
    (controlCycle P s).det = { (detectors P s).det with history := .build (historyStep s) } := by
  have h : historyStep (logicAndOutputs P (overrides P (detectors P s))) = historyStep s := by
    funext ch
    simp only [historyStep, valid, logicAndOutputs_inp, logicAndOutputs_det, overrides_inp, overrides_det,
      detectors_inp, detectors_history]
    rfl
  rw [controlCycle, recordHistory, h]
  simp

/-- The modulator after a cycle is that after C0, with the new duty request (rule R173). -/
theorem controlCycle_pm (P : Params) (s : State) :
    (controlCycle P s).pm =
      { (bookkeeping s).pm with
        dutyReq :=
          dutyRequest P (stateLogic P (overrides P (detectors P s))).1.status
            (stateLogic P (overrides P (detectors P s))).2 s.pm.dutyReq } := by
  simp [controlCycle, logicAndOutputs_pm, bookkeeping_pm]

/-- The relay state after a cycle is what C5 and C6 make of the state after C4. -/
theorem controlCycle_rc (P : Params) (s : State) :
    (controlCycle P s).rc = (logicAndOutputs P (overrides P (detectors P s))).rc := by
  rw [controlCycle, recordHistory_rc]

theorem logicAndOutputs_rc (P : Params) (s : State) :
    (logicAndOutputs P s).rc =
      { (stateLogic P s).1 with
        relay0 := (relaysOf (stateLogic P s).1.status (stateLogic P s).1.lowflowSel).1
        relay1 := (relaysOf (stateLogic P s).1.status (stateLogic P s).1.lowflowSel).2 } := rfl

theorem controlCycle_relays (P : Params) (s : State) : RelaysFollowStatus (controlCycle P s).rc :=
  logicAndOutputs_relays P _

end Sys2Proof.Machine
end

