-- ==== Sys2Proof/Laws/Decode.lean ====
section
/-! SUPPORT. The fields of a command word (`30_encoding.md` rule R80). -/

namespace Sys2Proof

theorem commandWord_toNat (op a : U8) (v : Word) :
    (commandWord op a v).toNat = op.toNat * 2 ^ 40 + a.toNat * 2 ^ 32 + v.toNat := by
  have ha := a.isLt
  have hv := v.isLt
  simp only [commandWord, BitVec.toNat_append]
  rw [← Nat.shiftLeft_add_eq_or_of_lt (by simpa using hv), ← Nat.shiftLeft_add_eq_or_of_lt (by simpa using ha)]
  simp only [Nat.shiftLeft_eq]
  ring

@[simp] theorem opField_commandWord (op a : U8) (v : Word) : opField (commandWord op a v) = op := by
  have ho := op.isLt
  have ha := a.isLt
  have hv := v.isLt
  apply BitVec.eq_of_toNat_eq
  rw [opField, BitVec.extractLsb'_toNat, commandWord_toNat, Nat.shiftRight_eq_div_pow]
  omega

@[simp] theorem aField_commandWord (op a : U8) (v : Word) : aField (commandWord op a v) = a := by
  have ha := a.isLt
  have hv := v.isLt
  apply BitVec.eq_of_toNat_eq
  rw [aField, BitVec.extractLsb'_toNat, commandWord_toNat, Nat.shiftRight_eq_div_pow]
  omega

@[simp] theorem vField_commandWord (op a : U8) (v : Word) : vField (commandWord op a v) = v := by
  have hv := v.isLt
  apply BitVec.eq_of_toNat_eq
  rw [vField, BitVec.extractLsb'_toNat, commandWord_toNat, Nat.shiftRight_eq_div_pow]
  omega

end Sys2Proof
end

