-- ==== Sys2Proof/Laws/Modulator.lean ====
section
/-! SUPPORT. What the crossing step can do, and that the modulator's ranges are kept. -/

namespace Sys2Proof.Machine

/-- The crossing step writes the modulator only. -/
theorem crossing_frame (P : Params) (s : State) : crossing P s = { s with pm := (crossing P s).pm } := rfl

theorem crossing_of_permit (P : Params) {s : State} (h : permit s = true) :
    crossing P s = { s with pm := permittedPath P s.pm } := by simp [crossing, h]

theorem crossing_of_not_permit (P : Params) {s : State} (h : permit s = false) :
    crossing P s = { s with pm := inhibitPath s.pm } := by simp [crossing, h]

/-- Rule R134 in numbers: with a duty in force of at most 120 and a remainder of at most 14 nothing is cut off. -/
theorem quantise_toNat (m : ModulatorState) (hd : (dutyInForce m).toNat ≤ 120) (hr : m.remainder.toNat ≤ 14) :
    (quantise m).powerMode.toNat = min (((dutyInForce m).toNat + m.remainder.toNat) / 15) 8 ∧
      (quantise m).remainder.toNat =
        (dutyInForce m).toNat + m.remainder.toNat -
          15 * min (((dutyInForce m).toNat + m.remainder.toNat) / 15) 8 := by
  simp only [quantise, quantMode, Config.dutyPerMode, Config.modeMax, BitVec.toNat_ofNat]
  omega

/-- What a permitted crossing does to the modulator, by whether it completes the frame (rule R133). -/
theorem permittedPath_cases (P : Params) (m : ModulatorState) :
    let bit := P.pattern m.powerMode.toNat m.crossingIndex.toNat
    (m.crossingIndex = completingIndex m.offsetPhase ∧
      permittedPath P m =
        quantise { drive bit m with crossingIndex := 0, offsetPhase := !m.offsetPhase }) ∨
    (m.crossingIndex ≠ completingIndex m.offsetPhase ∧
      permittedPath P m = { drive bit m with crossingIndex := m.crossingIndex + 1 }) := by
  by_cases h : m.crossingIndex = completingIndex m.offsetPhase
  · exact .inl ⟨h, if_pos h⟩
  · exact .inr ⟨h, if_neg h⟩

/-- Rule R140: an XCROSS keeps the modulator's ranges. -/
theorem inhibitPath_modulatorInv {m : ModulatorState} (h : ModulatorInv m) : ModulatorInv (inhibitPath m) :=
  ⟨h.duty, h.forced, h.staged, Nat.zero_le _, Nat.zero_le _, fun _ => Nat.zero_le _, Nat.zero_le _, ⟨rfl, rfl⟩⟩

theorem dutyInForce_le {m : ModulatorState} (h : ModulatorInv m) : (dutyInForce m).toNat ≤ 120 := by
  unfold dutyInForce
  cases hf : m.forced with
  | none => exact h.duty
  | some d => exact h.forced d hf

theorem permittedPath_modulatorInv (P : Params) {m : ModulatorState} (h : ModulatorInv m) :
    ModulatorInv (permittedPath P m) := by
  have hd := dutyInForce_le h
  have hm := h.mode
  have hi := h.index
  have hs := h.shortFrame
  have hr := h.remainder
  rcases permittedPath_cases P m with ⟨_, e⟩ | ⟨hne, e⟩ <;> rw [e]
  · obtain ⟨q1, q2⟩ := quantise_toNat
      { drive (P.pattern m.powerMode.toNat m.crossingIndex.toNat) m with
        crossingIndex := 0, offsetPhase := !m.offsetPhase } hd hr
    refine ⟨h.duty, h.forced, h.staged, ?_, by simp [quantise], fun _ => by simp [quantise], ?_, ⟨rfl, rfl⟩⟩
    · rw [q1]; omega
    · rw [q2]; simp only [dutyInForce, drive] at hd ⊢; omega
  · refine ⟨h.duty, h.forced, h.staged, hm, ?_, ?_, hr, ⟨rfl, rfl⟩⟩
    · simp only [completingIndex] at hne ⊢
      cases hp : m.offsetPhase <;> simp [hp] at hne hs <;> bv_omega
    · intro hp
      simp only [drive, completingIndex] at hne hp ⊢
      simp [hp] at hne hs
      bv_omega

theorem crossing_modulatorInv (P : Params) {s : State} (h : ModulatorInv s.pm) :
    ModulatorInv (crossing P s).pm := by
  unfold crossing
  split
  · exact permittedPath_modulatorInv P h
  · exact inhibitPath_modulatorInv h

end Sys2Proof.Machine
end

