-- ==== Sys2Proof/Laws/PerInstr.lean ====
section
/-! SUPPORT. Facts about every operation as syntax, one lemma per constructor. The family `EncodingMatchesTable` holds
the encoder against the `match` and `mask` columns of the spec's opcode table (`30_encoding.md` rule R82). -/

namespace Sys2Proof.Laws.EncodingMatchesTable

/-- The `mask` column: the bits of a row's word that are fixed. -/
def tableMask : Instr → Command
  | .nop => 0xFFFFFFFFFFFF
  | .rdreg _ => 0xFF00FFFFFFFF
  | .wrreg _ _ => 0xFF0000000000
  | .sreset => 0xFFFFFFFFFFFF
  | .freport _ => 0xFF00FFFFFFFF
  | .fclear _ => 0xFF00FFFFFFFF
  | .fexists _ => 0xFF00FFFFFFFF
  | .fcount => 0xFFFFFFFFFFFF
  | .thchk _ => 0xFF00FFFFFFFF
  | .zcedge => 0xFFFFFFFFFFFF
  | .xcross => 0xFFFFFFFFFFFF
  | .setduty _ => 0xFF00FFFFFFFF
  | .setforce _ => 0xFF00FFFFFFFF
  | .clrforce => 0xFFFFFFFFFFFF
  | .ctrl => 0xFFFFFFFFFFFF
  | .tick => 0xFFFFFFFFFFFF

/-- The `match` column: what those bits are. -/
def tableMatch : Instr → Command
  | .nop => 0x000000000000
  | .rdreg _ => 0x010000000000
  | .wrreg _ _ => 0x020000000000
  | .sreset => 0x030000000000
  | .freport _ => 0x100000000000
  | .fclear _ => 0x110000000000
  | .fexists _ => 0x120000000000
  | .fcount => 0x130000000000
  | .thchk _ => 0x180000000000
  | .zcedge => 0x200000000000
  | .xcross => 0x210000000000
  | .setduty _ => 0x220000000000
  | .setforce _ => 0x230000000000
  | .clrforce => 0x240000000000
  | .ctrl => 0x300000000000
  | .tick => 0x400000000000

/-- The word of an operation matches its row of the opcode table. -/
def Statement (i : Instr) : Prop := encode i &&& tableMask i = tableMatch i

theorem nop : Statement .nop := rfl
theorem rdreg (a : U8) : Statement (.rdreg a) := by revert a; unfold Statement; decide
theorem wrreg (a : U8) (v : Word) : Statement (.wrreg a v) := by
  change ((0x02 : U8) ++ a ++ v) &&& ((0xFF : U8) ++ (0 : U8) ++ (0 : Word)) = (0x02 : U8) ++ (0 : U8) ++ (0 : Word)
  rw [BitVec.and_append, BitVec.and_append]
  simp
theorem sreset : Statement .sreset := rfl
theorem freport (c : U8) : Statement (.freport c) := by revert c; unfold Statement; decide
theorem fclear (c : U8) : Statement (.fclear c) := by revert c; unfold Statement; decide
theorem fexists (c : U8) : Statement (.fexists c) := by revert c; unfold Statement; decide
theorem fcount : Statement .fcount := rfl
theorem thchk (ch : U8) : Statement (.thchk ch) := by revert ch; unfold Statement; decide
theorem zcedge : Statement .zcedge := rfl
theorem xcross : Statement .xcross := rfl
theorem setduty (d : U8) : Statement (.setduty d) := by revert d; unfold Statement; decide
theorem setforce (d : U8) : Statement (.setforce d) := by revert d; unfold Statement; decide
theorem clrforce : Statement .clrforce := rfl
theorem ctrl : Statement .ctrl := rfl
theorem tick : Statement .tick := rfl

end Sys2Proof.Laws.EncodingMatchesTable
end

