-- ==== Sys2Proof/Laws/State.lean ====
section
/-! SUPPORT. One lemma per field for every named update of the state, true by definition, so that no later proof
unfolds a record update. -/

namespace Sys2Proof.Machine

/-! ### An accepted command -/

@[simp] theorem State.respond_pm (s : State) (v : Word) : (s.respond v).pm = s.pm := rfl

@[simp] theorem State.respond_rc (s : State) (v : Word) : (s.respond v).rc = s.rc := rfl

@[simp] theorem State.respond_det (s : State) (v : Word) : (s.respond v).det = s.det := rfl

@[simp] theorem State.respond_th (s : State) (v : Word) : (s.respond v).th = s.th := rfl

@[simp] theorem State.respond_fr (s : State) (v : Word) : (s.respond v).fr = s.fr := rfl

@[simp] theorem State.respond_ctrlCnt (s : State) (v : Word) : (s.respond v).ctrlCnt = s.ctrlCnt := rfl

@[simp] theorem State.respond_set (s : State) (v : Word) : (s.respond v).set = s.set := rfl

@[simp] theorem State.respond_inp (s : State) (v : Word) : (s.respond v).inp = s.inp := rfl

@[simp] theorem State.respond_rsp (s : State) (v : Word) : (s.respond v).rsp = some ⟨false, v⟩ := rfl

@[simp] theorem State.respond_pins (s : State) (v : Word) : (s.respond v).pins = s.pins := rfl

/-! ### A refused command -/

@[simp] theorem State.refuse_pm (s : State) : (s.refuse).pm = s.pm := rfl

@[simp] theorem State.refuse_rc (s : State) : (s.refuse).rc = s.rc := rfl

@[simp] theorem State.refuse_det (s : State) : (s.refuse).det = s.det := rfl

@[simp] theorem State.refuse_th (s : State) : (s.refuse).th = s.th := rfl

@[simp] theorem State.refuse_fr (s : State) : (s.refuse).fr = s.fr := rfl

@[simp] theorem State.refuse_ctrlCnt (s : State) : (s.refuse).ctrlCnt = s.ctrlCnt := rfl

@[simp] theorem State.refuse_set (s : State) : (s.refuse).set = s.set := rfl

@[simp] theorem State.refuse_inp (s : State) : (s.refuse).inp = s.inp := rfl

@[simp] theorem State.refuse_rsp (s : State) : (s.refuse).rsp = some ⟨true, 0⟩ := rfl

@[simp] theorem State.refuse_pins (s : State) : (s.refuse).pins = s.pins := rfl

/-! ### No response -/

@[simp] theorem State.silent_pm (s : State) : (s.silent).pm = s.pm := rfl

@[simp] theorem State.silent_rc (s : State) : (s.silent).rc = s.rc := rfl

@[simp] theorem State.silent_det (s : State) : (s.silent).det = s.det := rfl

@[simp] theorem State.silent_th (s : State) : (s.silent).th = s.th := rfl

@[simp] theorem State.silent_fr (s : State) : (s.silent).fr = s.fr := rfl

@[simp] theorem State.silent_ctrlCnt (s : State) : (s.silent).ctrlCnt = s.ctrlCnt := rfl

@[simp] theorem State.silent_set (s : State) : (s.silent).set = s.set := rfl

@[simp] theorem State.silent_inp (s : State) : (s.silent).inp = s.inp := rfl

@[simp] theorem State.silent_rsp (s : State) : (s.silent).rsp = none := rfl

@[simp] theorem State.silent_pins (s : State) : (s.silent).pins = s.pins := rfl

/-! ### Taking the next event -/

@[simp] theorem State.takeEvent_pm (s : State) : (s.takeEvent).pm = s.pm := rfl

@[simp] theorem State.takeEvent_rc (s : State) : (s.takeEvent).rc = s.rc := rfl

@[simp] theorem State.takeEvent_det (s : State) : (s.takeEvent).det = s.det := rfl

@[simp] theorem State.takeEvent_th (s : State) : (s.takeEvent).th = s.th := rfl

@[simp] theorem State.takeEvent_fr (s : State) : (s.takeEvent).fr = s.fr := rfl

@[simp] theorem State.takeEvent_ctrlCnt (s : State) : (s.takeEvent).ctrlCnt = s.ctrlCnt := rfl

@[simp] theorem State.takeEvent_set (s : State) : (s.takeEvent).set = s.set := rfl

@[simp] theorem State.takeEvent_inp (s : State) : (s.takeEvent).inp = s.inp := rfl

@[simp] theorem State.takeEvent_rsp (s : State) : (s.takeEvent).rsp = s.rsp := rfl

@[simp] theorem State.takeEvent_pins (s : State) : (s.takeEvent).pins = pinsAfter s.pins := rfl

/-! ### Presenting a command -/

@[simp] theorem State.withFetchWord_pm (s : State) (n w : Nat) : (s.withFetchWord n w).pm = s.pm := rfl

@[simp] theorem State.withFetchWord_rc (s : State) (n w : Nat) : (s.withFetchWord n w).rc = s.rc := rfl

@[simp] theorem State.withFetchWord_det (s : State) (n w : Nat) : (s.withFetchWord n w).det = s.det := rfl

@[simp] theorem State.withFetchWord_th (s : State) (n w : Nat) : (s.withFetchWord n w).th = s.th := rfl

@[simp] theorem State.withFetchWord_fr (s : State) (n w : Nat) : (s.withFetchWord n w).fr = s.fr := rfl

@[simp] theorem State.withFetchWord_ctrlCnt (s : State) (n w : Nat) : (s.withFetchWord n w).ctrlCnt = s.ctrlCnt := rfl

@[simp] theorem State.withFetchWord_set (s : State) (n w : Nat) : (s.withFetchWord n w).set = s.set := rfl

@[simp] theorem State.withFetchWord_inp (s : State) (n w : Nat) : (s.withFetchWord n w).inp = s.inp := rfl

@[simp] theorem State.withFetchWord_rsp (s : State) (n w : Nat) : (s.withFetchWord n w).rsp = s.rsp := rfl

@[simp] theorem State.withFetchWord_pins (s : State) (n w : Nat) : (s.withFetchWord n w).pins = .ofCommand (tableCommand n w) :: s.pins := rfl

/-! ### Reset -/

@[simp] theorem State.toReset_pm (P : Params) (s : State) : (s.toReset P).pm = (State.resetWith P).pm := rfl

@[simp] theorem State.toReset_rc (P : Params) (s : State) : (s.toReset P).rc = (State.resetWith P).rc := rfl

@[simp] theorem State.toReset_det (P : Params) (s : State) : (s.toReset P).det = (State.resetWith P).det := rfl

@[simp] theorem State.toReset_th (P : Params) (s : State) : (s.toReset P).th = (State.resetWith P).th := rfl

@[simp] theorem State.toReset_fr (P : Params) (s : State) : (s.toReset P).fr = (State.resetWith P).fr := rfl

@[simp] theorem State.toReset_ctrlCnt (P : Params) (s : State) : (s.toReset P).ctrlCnt = (State.resetWith P).ctrlCnt := rfl

@[simp] theorem State.toReset_set (P : Params) (s : State) : (s.toReset P).set = (State.resetWith P).set := rfl

@[simp] theorem State.toReset_inp (P : Params) (s : State) : (s.toReset P).inp = (State.resetWith P).inp := rfl

@[simp] theorem State.toReset_rsp (P : Params) (s : State) : (s.toReset P).rsp = (State.resetWith P).rsp := rfl

@[simp] theorem State.toReset_pins (P : Params) (s : State) : (s.toReset P).pins = s.pins := rfl

/-! ### Writing a register changes the settings and the inputs only -/

@[simp] theorem regWrite_pm (s : State) (r : Reg) (v : Word) : (regWrite s r v).pm = s.pm := by
  cases r <;> rfl

@[simp] theorem regWrite_rc (s : State) (r : Reg) (v : Word) : (regWrite s r v).rc = s.rc := by
  cases r <;> rfl

@[simp] theorem regWrite_det (s : State) (r : Reg) (v : Word) : (regWrite s r v).det = s.det := by
  cases r <;> rfl

@[simp] theorem regWrite_th (s : State) (r : Reg) (v : Word) : (regWrite s r v).th = s.th := by
  cases r <;> rfl

@[simp] theorem regWrite_fr (s : State) (r : Reg) (v : Word) : (regWrite s r v).fr = s.fr := by
  cases r <;> rfl

@[simp] theorem regWrite_ctrlCnt (s : State) (r : Reg) (v : Word) : (regWrite s r v).ctrlCnt = s.ctrlCnt := by
  cases r <;> rfl

@[simp] theorem regWrite_rsp (s : State) (r : Reg) (v : Word) : (regWrite s r v).rsp = s.rsp := by
  cases r <;> rfl

@[simp] theorem regWrite_pins (s : State) (r : Reg) (v : Word) : (regWrite s r v).pins = s.pins := by
  cases r <;> rfl

end Sys2Proof.Machine
end

