-- ==== Sys2Proof/Tests/Slice0.lean ====
section
/-! SUPPORT. The model's own tests. Expected values are the spec's: the examples of its rules and the vectors of
`95_test_vectors.md`, under the reference parameter set REF. The last part gives, for every statement that has
hypotheses, a state and operands that meet them. -/

namespace Sys2Proof.Tests

open Sys2Proof Sys2Proof.Machine

/-- The block right after reset with the parameters REF. -/
def atReset : State := State.resetWith Params.ref

/-- The block with status `st`, flow present and the outlet at `t`. -/
def withFlow (st : Status) (t : U16) : State :=
  { atReset with
    rc := { atReset.rc with status := st }
    inp :=
      { atReset.inp with
        flowPresent := true
        temps := atReset.inp.temps.set .outlet ⟨t, true⟩ } }

/-- The block with status `st` and the given codes in the registry. -/
def withFaults (st : Status) (codes : List U8) : State :=
  { atReset with rc := { atReset.rc with status := st }, fr := ⟨codes, false⟩ }

/-! ### Well-formedness: for each check a term it refuses, and one it accepts -/

theorem test_wf_rdreg_unmapped : (Instr.rdreg 0x0E).wellFormed Params.ref = false := by decide
theorem test_wf_rdreg_fslot : (Instr.rdreg 0x49).wellFormed Params.ref = true ∧
    (Instr.rdreg 0x4A).wellFormed Params.ref = false := by decide
theorem test_wf_wrreg_unmapped : (Instr.wrreg 0x18 0).wellFormed Params.ref = false := by decide
theorem test_wf_wrreg_readonly : (Instr.wrreg 0x00 0).wellFormed Params.ref = false := by decide
theorem test_wf_wrreg_mode : (Instr.wrreg 0x11 2).wellFormed Params.ref = false ∧
    (Instr.wrreg 0x11 0x101).wellFormed Params.ref = true := by decide
theorem test_wf_freport_zero : (Instr.freport 0).wellFormed Params.ref = false := by decide
theorem test_wf_fclear_zero : (Instr.fclear 0).wellFormed Params.ref = false := by decide
theorem test_wf_fexists_zero : (Instr.fexists 0).wellFormed Params.ref = false := by decide
theorem test_wf_thchk_six : (Instr.thchk 6).wellFormed Params.ref = false ∧
    (Instr.thchk 5).wellFormed Params.ref = true := by decide

/-! ### Decoding: a word of every row, op in bits 47..40, a in 39..32, v in 31..0 (rules R80 to R82) -/

theorem test_decode_nop : decode 0x000000000000 = .ok .nop := by decide
theorem test_decode_rdreg : decode 0x014100000000 = .ok (.rdreg 0x41) := by decide
theorem test_decode_wrreg : decode 0x02143F800000 = .ok (.wrreg 0x14 0x3F800000) := by decide
theorem test_decode_sreset : decode 0x030000000000 = .ok .sreset := by decide
theorem test_decode_freport : decode 0x102000000000 = .ok (.freport 0x20) := by decide
theorem test_decode_fclear : decode 0x110400000000 = .ok (.fclear 4) := by decide
theorem test_decode_fexists : decode 0x120400000000 = .ok (.fexists 4) := by decide
theorem test_decode_fcount : decode 0x130000000000 = .ok .fcount := by decide
theorem test_decode_thchk : decode 0x180200000000 = .ok (.thchk 2) := by decide
theorem test_decode_zcedge : decode 0x200000000000 = .ok .zcedge := by decide
theorem test_decode_xcross : decode 0x210000000000 = .ok .xcross := by decide
theorem test_decode_setduty : decode 0x22C800000000 = .ok (.setduty 200) := by decide
theorem test_decode_setforce : decode 0x233C00000000 = .ok (.setforce 60) := by decide
theorem test_decode_clrforce : decode 0x240000000000 = .ok .clrforce := by decide
theorem test_decode_ctrl : decode 0x300000000000 = .ok .ctrl := by decide
theorem test_decode_tick : decode 0x400000000000 = .ok .tick := by decide
theorem test_decode_unknown_op : decode 0x140000000000 = .error (.unknownOp 0x14) := by decide
theorem test_decode_format_z_a : decode 0x300100000000 = .error .nonzeroA := by decide
theorem test_decode_format_a_v : decode 0x222D00000001 = .error .nonzeroV := by decide
theorem test_decode_table_word : decodeTableWord 48 0x233C00000000 = some (.setforce 60) := by decide

/-! ### One small step per operation -/

/-- Rule R200. -/
theorem test_nop : exec .nop atReset = .next (atReset.respond 0) := rfl

/-- Rules R130 and R201: after ZCEDGE, STATUS reads 0x00002000. -/
theorem test_zcedge_status :
    (opRdreg Params.ref 0x00 { atReset with pm := { atReset.pm with zcPending := true } }).rsp =
      some ⟨false, 0x00002000⟩ := by decide

/-- Rule R201: `RDREG 0x0E` is refused. -/
theorem test_rdreg_refused : opRdreg Params.ref 0x0E atReset = atReset.refuse := by decide

/-- Rule R202: `WRREG 0x29, 0x0001005A`. -/
theorem test_wrreg_temp :
    (opWrreg Params.ref 0x29 0x0001005A atReset).inp.temps.outlet = ⟨90, true⟩ := by decide

/-- Rules R40, R202: `WRREG 0x10, 0xFFFFFFF6` sets TARGET to −10. -/
theorem test_wrreg_target : (opWrreg Params.ref 0x10 0xFFFFFFF6 atReset).set.target.toInt = -10 := by decide

/-- Rule R203: SRESET empties the registry of a Class-B code. -/
theorem test_sreset : ((withFaults .error [0x04]).toReset Params.ref).fr = ⟨[], false⟩ := by decide

/-- Vectors, section 1.5, line 2. -/
theorem test_freport_appends : (opFreport Params.ref 0x04 (withFaults .initial [0x20])).fr.faults = [0x20, 0x04] := by
  decide

/-- Rule R110: the eleventh code is dropped, with answer 2. -/
theorem test_freport_full :
    (opFreport Params.ref 0x38 (withFaults .error [1, 2, 3, 4, 5, 6, 7, 8, 9, 10])).rsp = some ⟨false, 2⟩ ∧
      (opFreport Params.ref 0x38 (withFaults .error [1, 2, 3, 4, 5, 6, 7, 8, 9, 10])).fr.overflow = true := by decide

/-- Rule R114: FCLEAR 0x20 leaves [0x04, 0x10]. -/
theorem test_fclear_removes : (opFclear 0x20 (withFaults .error [0x20, 0x04, 0x10])).fr.faults = [0x04, 0x10] := by
  decide

/-- Rule R114: FCLEAR 0x04 then answers 0 and changes nothing. -/
theorem test_fclear_class_b :
    opFclear 0x04 (withFaults .error [0x04, 0x10]) = (withFaults .error [0x04, 0x10]).respond 0 := by decide

/-- Rule R115. -/
theorem test_fexists : (opFexists 0x04 (withFaults .error [0x04])).rsp = some ⟨false, 1⟩ ∧
    (opFexists 0x05 (withFaults .error [0x04])).rsp = some ⟨false, 0⟩ := by decide

/-- Rule R116, vectors section 1.5, line 4. -/
theorem test_fcount : exec .fcount (withFaults .error [0x20, 0x04, 0x10]) =
    .next ((withFaults .error [0x20, 0x04, 0x10]).respond 3) := rfl

/-- Chamber 0 with an ADC count of 500 and `n` evaluations that said open. -/
def openCount (n : U8) : State :=
  { atReset with
    inp := { atReset.inp with counts := atReset.inp.counts.set .chamber0 ⟨500, false⟩ }
    th := atReset.th.set .chamber0 ⟨⟨false, n⟩, ⟨false, 0⟩⟩ }

/-- Rule R122: the fifth THCHK 2 answers 1 and reports 0x12. -/
theorem test_thchk_fifth : (opThchk Params.ref 2 (openCount 4)).rsp = some ⟨false, 1⟩ ∧
    (opThchk Params.ref 2 (openCount 4)).fr.faults = [0x12] := by decide

/-- Rule R122: the fourth one still answers 0. -/
theorem test_thchk_fourth : (opThchk Params.ref 2 (openCount 3)).rsp = some ⟨false, 0⟩ ∧
    (opThchk Params.ref 2 (openCount 3)).fr.faults = [] := by decide

/-- Running at the last crossing of the nine-slot frame of row 5, the duty request 75. -/
def frameEnd : State :=
  { withFlow .running 50 with
    pm := { atReset.pm with dutyReq := 75, powerMode := 5, crossingIndex := 8, remainder := 3 } }

/-- Rules R133, R134, R88: column 8 of row 5 is 1, and the next frame has row 5 and remainder 3. -/
theorem test_xcross_frame_end :
    (opXcross Params.ref frameEnd).pm =
      { frameEnd.pm with
        opto0 := true, opto1 := true, optoStatus := true, crossingIndex := 0, offsetPhase := true, powerMode := 5,
        remainder := 3 } := by decide

/-- Rule R135: with a fault both switches go off and `power_mode` is cleared too. -/
theorem test_xcross_inhibit :
    (opXcross Params.ref { frameEnd with fr := ⟨[0x20], false⟩ }).pm =
      { frameEnd.pm with crossingIndex := 0, powerMode := 0, remainder := 0 } := by decide

/-- Rule R136: `SETDUTY 200` answers 120. -/
theorem test_setduty_saturates : exec (.setduty 200) atReset =
    .next ({ atReset with pm := { atReset.pm with dutyReq := 120 } }.respond 120) := rfl

/-- Rule R137: FORCE reads 0x033C0000 after `SETFORCE 60`. -/
theorem test_setforce :
    regRead { atReset with pm := { atReset.pm with fcPending := true, fcEn := true, fcVal := capDuty 60 } } .force =
      0x033C0000 := by decide

/-- Rule R138: FORCE reads 0x02000000 after `CLRFORCE`. -/
theorem test_clrforce :
    regRead { atReset with pm := { atReset.pm with fcPending := true, fcEn := false, fcVal := 0 } } .force =
      0x02000000 := by decide

/-- The state of the worked example of rule R198: outlet 90 after 88, target 100, integral 10.0. -/
def pidExample : State :=
  { withFlow .running 90 with
    rc := { (withFlow .running 90).rc with integral := 0x41200000 }
    set := { atReset.set with target := 100, kp := 0x40000000, ki := 0x3F000000, kdRise := 0xBF800000,
                              kdFall := 0xBF000000 }
    det := { atReset.det with history := atReset.det.history.set .outlet ⟨88, true⟩ } }

/-- Rule R198: `duty_req` 15, the integral 15.0. -/
theorem test_ctrl_pid : (opCtrl Params.ref pidExample).pm.dutyReq = 15 ∧
    (opCtrl Params.ref pidExample).rc.integral = 0x41700000 := by decide +kernel

/-- Vectors, section 1.6, line 5: a fault in Running ends in Error, relays open. -/
theorem test_ctrl_fault :
    (opCtrl Params.ref (withFaults .running [0x20])).rsp = some ⟨false, 6⟩ ∧
      (opCtrl Params.ref (withFaults .running [0x20])).rc.previousStatus = .running := by decide

/-- Vectors, section 1.1: after the first TICK, CYCLES reads 0x01F30001. -/
theorem test_tick_cycles : regRead (opTick Params.ref atReset) .cycles = 0x01F30001 := by decide

/-- Rule R261: in one tick the crossing runs before the control cycle, and sees the status it had. -/
theorem test_tick_crossing_first :
    (opTick Params.ref { frameEnd with pm := { frameEnd.pm with zcPending := true }, fr := ⟨[], false⟩ }).pm.powerMode =
      5 := by decide +kernel

/-! ### The step -/

/-- Rule R8: a presented command is the next operation. -/
theorem test_step_command : step (State.reset.withFetchWord 48 0x222D00000000) =
    .next { State.reset with pm := { State.reset.pm with dutyReq := 45 }, rsp := some ⟨false, 45⟩ } := rfl

/-- Rule R92: in one clock the crossing event comes before the tick, which then still waits. -/
theorem test_step_pin_order (s : State) : step { s with pins := [⟨true, true, true, false, 0⟩] } =
    .next { s with pm := { s.pm with zcPending := true }, rsp := none, pins := [⟨true, false, true, false, 0⟩] } := rfl

/-- Rule R9: with nothing presented no state element changes. -/
theorem test_step_idle (s : State) : step { s with pins := [] } = .next { s with rsp := none, pins := [] } := rfl

/-! ### Witnesses: states and operands that meet the hypotheses of the statements. A statement about CTRL is said of
every parameter set, so its witness takes REF; `CtrlAnswers` holds of `opCtrl` and any parameter set. -/

/-- What the statements about CTRL ask of `t` is met by the state CTRL leads to. -/
theorem witness_ctrlAnswers (s : State) : CtrlAnswers Params.ref s (opCtrl Params.ref s) :=
  ⟨rfl, fun h => by rw [h]; rfl⟩

/-- A presented command, and nothing else. -/
def presented (w : Command) : State := { State.reset with pins := [.ofCommand w] }

theorem witness_EncodeInvertsDecode : decode 0x22FF00000000 = .ok (.setduty 255) := by decide

theorem witness_StepRunsTheDecodedCommand :
    (presented 0x02FFFFFFFFFF).pins = [⟨true, false, false, true, 0x02FFFFFFFFFF⟩] ∧
      decode 0x02FFFFFFFFFF = .ok (.wrreg 0xFF 0xFFFFFFFF) := by decide

theorem witness_PinEventsRunInOrder_idle : State.reset.pins = [] ∧
    ∃ p : PinSample, p.rstN = true ∧ p.zcEvt = false ∧ p.tick1ms = false ∧ p.cmdValid = false :=
  ⟨rfl, ⟨true, false, false, false, 0xFFFFFFFFFFFF⟩, rfl, rfl, rfl, rfl⟩

theorem witness_PinEventsRunInOrder :
    (∃ p : PinSample, p.rstN = true ∧ p.zcEvt = true) ∧
      (∃ p : PinSample, p.rstN = true ∧ p.zcEvt = false ∧ p.tick1ms = true) ∧
        ∃ p : PinSample, p.rstN = true ∧ p.zcEvt = false ∧ p.tick1ms = false ∧ p.cmdValid = true ∧
          decode p.cmd = .ok .tick :=
  ⟨⟨⟨true, true, true, true, 0⟩, rfl, rfl⟩, ⟨⟨true, false, true, true, 0⟩, rfl, rfl, rfl⟩,
    ⟨true, false, false, true, 0x400000000000⟩, rfl, rfl, rfl, rfl, by decide⟩

theorem witness_ResetByPinAndByCommand : ({ State.reset with pins := [⟨false, true, true, true, 0⟩] } : State).pins =
    [⟨false, true, true, true, 0⟩] := rfl

theorem witness_IllegalWordIsRefused : (presented 0xFF0000000000).pins = [⟨true, false, false, true, 0xFF0000000000⟩] ∧
    decode 0xFF0000000000 = .error (.unknownOp 0xFF) := by decide

theorem witness_RefusedExactlyWhenIllFormed : (Instr.freport 0).wellFormed Config.params = false ∧
    (Instr.freport 255).wellFormed Config.params = true := by decide

theorem witness_NopOnlyAnswersZero : (0x00FFFFFFFFFF : Command).toNat / 2 ^ 40 = 0 ∧ (0x00FFFFFFFFFF : Command) ≠ 0 := by
  decide

theorem witness_RdregModulatorFields : (0x02 : U8) ∈ [(0x01 : U8), 0x02] := by decide

theorem witness_RdregControlFields :
    (0x0B : U8) ∈ [(0x03 : U8), 0x04, 0x05, 0x06, 0x07, 0x08, 0x09, 0x0A, 0x0B] := by decide

theorem witness_ThchkDebouncesAndReports : Channel.chamber3 ≠ Channel.inlet := by decide

theorem witness_RefPatternMeetsTheDutyProperty : (120 : Nat) ≤ 120 ∧ (14 : Nat) ≤ 14 := by decide

theorem witness_RdregRegistryAndChannelFields : (15 : Nat) < 16 ∧ (0x0C : U8).toNat = 0x0C ∧ (0x4F : U8).toNat ≤ 0x4F ∧
    (0x50 : U8).toNat ≤ 0x55 ∧ (0x5D : U8).toNat ≤ 0x5D := by decide

theorem witness_RegistryQueries : atReset.fr.faults.length ≤ Config.params.faultCap := Nat.zero_le _

theorem witness_WrregChangesOnlyItsRegister : (0x10 : U8) ≠ 0x11 := by decide

theorem witness_FclearRemovesUnlessClassB : (withFaults .error [0x06, 0x07]).fr.faults.Nodup ∧ 6 < (0x07 : U8).toNat ∧
    (0x07 : U8) ∈ (withFaults .error [0x06, 0x07]).fr.faults := by decide

theorem witness_XcrossInhibits : (withFaults .running [0x20]).fr.faults ≠ [] ∧ ¬Heats (withFaults .initial []).rc.status := by
  unfold Heats; decide

/-- The modulator's ranges hold at the last crossing of a frame. -/
theorem frameEnd_ranges : ModulatorInv frameEnd.pm where
  duty := by decide
  forced := fun d h => nomatch (h : (none : Option U8) = some d)
  staged := by decide
  mode := by decide
  index := by decide
  shortFrame := by decide
  remainder := by decide
  pins := by decide

theorem witness_XcrossDrivesTheTable : frameEnd.fr.faults = [] ∧ Heats frameEnd.rc.status ∧ ModulatorInv frameEnd.pm :=
  ⟨rfl, .inl rfl, frameEnd_ranges⟩

/-- The same block at the start of a frame, with remainder 14. -/
def frameStart : State := { frameEnd with pm := { frameEnd.pm with crossingIndex := 0, remainder := 14 } }

/-- The modulator's ranges hold at the start of a frame. -/
theorem frameStart_ranges : ModulatorInv frameStart.pm :=
  ⟨by decide, (fun d h => nomatch (h : (none : Option U8) = some d)), by decide, by decide, by decide, by decide,
    by decide, by decide⟩

theorem witness_PermittedFrameDrivesItsRow : frameStart.fr.faults = [] ∧ Heats frameStart.rc.status ∧
    frameStart.pm.crossingIndex = 0 ∧ ModulatorInv frameStart.pm ∧ 8 < frameLength frameStart.pm.offsetPhase :=
  ⟨rfl, .inl rfl, rfl, frameStart_ranges, by decide⟩

theorem witness_RemainderCarryLosesNoDuty : frameStart.fr.faults = [] ∧ Heats frameStart.rc.status ∧
    frameStart.pm.crossingIndex = 0 ∧ ModulatorInv frameStart.pm :=
  ⟨rfl, .inl rfl, rfl, frameStart_ranges⟩

theorem witness_CtrlDetectsChambersOnce :
    min (({ atReset with det := { atReset.det with cycleCount := 19 } } : State).det.cycleCount.toNat + 1) 65535 =
      Params.ref.detectCycles := by decide

/-- Chamber 0 at 60 after 30, with `confirm` such cycles before, in status `st`, flow as given. -/
def chamberRise (st : Status) (confirm : U8) (flow : Bool) : State :=
  { atReset with
    rc := { atReset.rc with status := st }
    inp := { atReset.inp with flowPresent := flow, temps := atReset.inp.temps.set .chamber0 ⟨60, true⟩ }
    det := { atReset.det with
              history := atReset.det.history.set .chamber0 ⟨30, true⟩, dryfireConfirm := confirm } }

theorem witness_CtrlDetectsDryFireAndShutdown :
    (∃ ch ∈ [Channel.chamber0, .chamber1, .chamber2, .chamber3],
        RisesTooFast Params.ref (chamberRise .running 255 true) ch) ∧
      ∀ ch ∈ [Channel.chamber0, .chamber1, .chamber2, .chamber3], ¬RisesTooFast Params.ref atReset ch := by
  unfold RisesTooFast; decide

/-- Configuration Two with `avg_diff_err`, flow present, the confirm counter of bank 0 at 1 and three events. -/
def scaleAnomaly : State :=
  { atReset with
    inp := { atReset.inp with flowPresent := true, avgDiffErr := true }
    det := { atReset.det with chamberCfg := .two, banks := ⟨⟨1, 3, false⟩, ⟨0, 0, false⟩⟩ } }

theorem witness_CtrlScaleDetectorLocksABank :
    ((opCtrl Params.ref scaleAnomaly).det.chamberCfg = .two ∧ BankHot Params.ref scaleAnomaly .two .bank0) ∧
      (opCtrl Params.ref scaleAnomaly).det.banks.bank0 = ⟨2, 4, true⟩ ∧
      (opCtrl Params.ref scaleAnomaly).fr.faults = [0x30] ∧ ¬BankHot Params.ref atReset .one .bank0 :=
  ⟨⟨by decide, .inr (.inr (.inr ⟨rfl, rfl⟩))⟩, by decide, by decide, by unfold BankHot ChamberHot; decide⟩

theorem witness_CtrlFaultForcesError :
    (opCtrl Params.ref (withFaults .error [0x20])).fr.faults ≠ [] ∧
      ((opCtrl Params.ref (withFaults .running [0x20])).fr.faults ≠ [] ∧
        ¬Params.ref.confirmN ≤ (opCtrl Params.ref (withFaults .running [0x20])).det.dryfireConfirm.toNat) ∧
      (opCtrl Params.ref { chamberRise .standbyHeat 1 false with fr := ⟨[0x20], false⟩ }).fr.faults ≠ [] ∧
        Params.ref.confirmN ≤
          (opCtrl Params.ref { chamberRise .standbyHeat 1 false with fr := ⟨[0x20], false⟩ }).det.dryfireConfirm.toNat := by
  decide

/-- ErrorWait with `n` cycles of the dwell to come. -/
def inErrorWait (n : U16) : State :=
  { atReset with rc := { atReset.rc with status := .errorWait, errorWaitCounter := n } }

theorem witness_CtrlReturnsThroughErrorWait :
    ((withFaults .error []).rc.status = .error ∧ (opCtrl Params.ref (withFaults .error [])).fr.faults = []) ∧
      (opCtrl Params.ref (inErrorWait 1)).fr.faults = [] ∧ (opCtrl Params.ref (inErrorWait 2)).fr.faults = [] ∧
      (inErrorWait 1).rc.status = .errorWait := by decide

theorem witness_CtrlCeilingForcesTempWait :
    ((opCtrl Params.ref (withFlow .running 121)).fr.faults = [] ∧ (withFlow .running 121).rc.status ≠ .error ∧
        (withFlow .running 121).rc.status ≠ .errorWait ∧ OutletOver Params.ref (withFlow .running 121)) ∧
      ((opCtrl Params.ref (withFlow .tempWait 120)).fr.faults = [] ∧
        ¬OutletOver Params.ref (withFlow .tempWait 120)) := by
  unfold OutletOver; decide

theorem witness_CtrlDryFireEndsHeating :
    ((opCtrl Params.ref (chamberRise .running 1 true)).fr.faults = [] ∧
        ¬OutletOver Params.ref (chamberRise .running 1 true) ∧
        Params.ref.confirmN ≤ (opCtrl Params.ref (chamberRise .running 1 true)).det.dryfireConfirm.toNat) ∧
      ((opCtrl Params.ref (chamberRise .standbyHeat 1 false)).fr.faults = [] ∧
        ¬OutletOver Params.ref (chamberRise .standbyHeat 1 false) ∧
        Params.ref.confirmN ≤
          (opCtrl Params.ref (chamberRise .standbyHeat 1 false)).det.dryfireConfirm.toNat ∧
        Params.ref.dryfireDwell.toNat ≠ 0) := by
  unfold OutletOver; decide +kernel

theorem witness_CtrlLeavesInitialRunningLowFlow :
    ((opCtrl Params.ref (withFlow .initial 50)).fr.faults = [] ∧ ¬OutletOver Params.ref (withFlow .initial 50)) ∧
      ((opCtrl Params.ref (withFlow .running 50)).fr.faults = [] ∧ ¬OutletOver Params.ref (withFlow .running 50) ∧
        (opCtrl Params.ref (withFlow .running 50)).det.dryfireConfirm.toNat < Params.ref.confirmN) ∧
      (opCtrl Params.ref (withFlow .lowFlow 50)).fr.faults = [] ∧
        (opCtrl Params.ref (withFlow .lowFlow 50)).det.dryfireConfirm.toNat < Params.ref.confirmN := by
  unfold OutletOver; decide +kernel

/-- No flow, standby enabled as given, chamber 0 at 59, one below STANDBY_TARGET, in status `st`. -/
def coolChamber (st : Status) (enabled : Bool) : State :=
  { atReset with
    rc := { atReset.rc with status := st }
    set := { atReset.set with standbyEn := enabled }
    inp := { atReset.inp with temps := atReset.inp.temps.set .chamber0 ⟨59, true⟩ } }

/-- Shutdown with two cycles of the grace to come. -/
def inShutdown : State := { atReset with rc := { atReset.rc with status := .shutdown, shutdownCounter := 2 } }

theorem witness_CtrlLeavesTheWaitingStates_grace : (opCtrl Params.ref inShutdown).fr.faults = [] ∧
    ¬OutletOver Params.ref inShutdown ∧ inShutdown.rc.status = .shutdown ∧ 1 < inShutdown.rc.shutdownCounter.toNat := by
  unfold OutletOver; decide

theorem witness_CtrlLeavesTheWaitingStates :
    ∀ st ∈ [Status.shutdown, .standbyCool, .standbyHeat, .dryFireWait],
      ((opCtrl Params.ref (coolChamber st true)).fr.faults = [] ∧ ¬OutletOver Params.ref (coolChamber st true) ∧
        (opCtrl Params.ref (coolChamber st true)).det.dryfireConfirm.toNat < Params.ref.confirmN ∧
        WantsStandby Params.ref (coolChamber st true)) ∧
      (opCtrl Params.ref (coolChamber st false)).fr.faults = [] ∧ ¬WantsStandby Params.ref (coolChamber st false) ∧
      (opCtrl Params.ref (withFlow st 50)).fr.faults = [] ∧ ¬OutletOver Params.ref (withFlow st 50) ∧
        (withFlow st 50).inp.flowPresent = true := by
  unfold OutletOver WantsStandby; decide

/-- The parameters REF with no dry-fire dwell. -/
def noDwell : Params := { Params.ref with dryfireDwell := 0 }

theorem witness_CtrlEnteringLoadsAndSaves :
    (¬DryFireActs Params.ref (withFlow .running 120) (opCtrl Params.ref (withFlow .running 120)) ∧
        ¬OutletOver Params.ref (withFlow .running 120)) ∧
      OutletOver Params.ref (withFlow .running 121) ∧
      DryFireActs Params.ref (chamberRise .standbyHeat 1 false) (opCtrl Params.ref (chamberRise .standbyHeat 1 false)) ∧
      (opCtrl Params.ref (withFaults .running [0x20])).fr.faults ≠ [] ∧
      (opCtrl Params.ref (chamberRise .dryFireWait 0 false)).rc.status = .shutdown := by
  unfold DryFireActs OutletOver Heats; decide +kernel

theorem witness_CtrlDryFireWithoutDwellRedecides :
    let s := chamberRise .standbyHeat 1 false
    (opCtrl noDwell s).fr.faults = [] ∧ ¬OutletOver noDwell s ∧
      noDwell.confirmN ≤ (opCtrl noDwell s).det.dryfireConfirm.toNat ∧ s.rc.status = .standbyHeat ∧
      s.inp.flowPresent = false ∧ noDwell.dryfireDwell = 0 := by
  unfold OutletOver; decide +kernel

/-- Both sides of the disjunction are met: by the worked example the integral moves, at reset it does not. -/
theorem witness_CtrlIntegralMovesOnlyInThePidStep :
    (opCtrl Params.ref pidExample).rc.integral ≠ pidExample.rc.integral ∧
      (opCtrl Params.ref atReset).rc.integral = atReset.rc.integral := by decide +kernel

theorem witness_CtrlRelaysAndDutyFollowStatus_dryFire :
    (opCtrl noDwell (chamberRise .running 1 true)).rc.status = .running ∧
      DryFireActs noDwell (chamberRise .running 1 true) (opCtrl noDwell (chamberRise .running 1 true)) := by
  unfold DryFireActs Heats; decide +kernel

theorem witness_CtrlRelaysAndDutyFollowStatus :
    (opCtrl Params.ref (coolChamber .standbyCool true)).rc.status = .standbyHeat ∧
      (opCtrl Params.ref atReset).rc.status = .standbyCool ∧
      (opCtrl Params.ref (withFlow .initial 50)).rc.status = .running := by decide

theorem witness_PidStepSetsTheDuty :
    ((opCtrl Params.ref pidExample).fr.faults = [] ∧ ¬OutletOver Params.ref pidExample ∧
        (opCtrl Params.ref pidExample).det.dryfireConfirm.toNat < Params.ref.confirmN ∧
        pidExample.inp.flowPresent = true ∧ (opCtrl Params.ref pidExample).rc.shutdownFlag = false ∧
        pidExample.rc.status = .running ∧ pidExample.inp.flowLow = false) ∧
      pidExample.inp.temps.outlet.detected = true := by
  unfold OutletOver; decide +kernel

theorem witness_ErrorIsLeftOnlyThroughErrorWait :
    (∀ st ∈ [Status.error, .errorWait], ¬TakesReset { withFaults st [] with pins := [.ofCommand 0x300000000000] }) ∧
      ∀ s : State, ∃ t, step { s with pins := [.ofCommand 0x300000000000] } = .next t := by
  refine ⟨?_, fun s => ⟨_, rfl⟩⟩
  unfold TakesReset
  decide

theorem witness_RoundingIsNearestEven : roundPattern (2 ^ 24 + 1) 0 < 0x7F800000 ∧ 0x7F7FFFFF < 0x7F800000 := by decide

/-- The largest finite value and half a unit below it and above are on the two sides of the overflow threshold. -/
theorem witness_BinaryArithmeticIsCorrectlyRounded :
    fadd (f32OfBits 0x7F7FFFFF) (f32OfBits 0x72FFFFFF) = f32OfBits 0x7F7FFFFF ∧
      fadd (f32OfBits 0x7F7FFFFF) (f32OfBits 0x73000000) = f32OfBits 0x7F800000 := by decide +kernel

theorem witness_BinaryComparisonClampAndTruncation : (120 * 2 ^ 149 : Nat) ≤ 120 * 2 ^ 149 := Nat.le_refl _

theorem witness_BinaryPatternsRoundTrip : f32OfBits 0xFF800000 = some (.inf true) ∧ (-65535 : Int).natAbs ≤ 65535 := by
  decide

theorem witness_StepKeepsTheInvariant : Invariant Config.params (presented 0) ∧ ∃ t, step (presented 0) = .next t :=
  ⟨⟨⟨by decide, (fun d h => nomatch (h : (none : Option U8) = some d)), by decide, by decide,
      by decide, by decide, by decide, by decide⟩,
    ⟨by decide, Nat.zero_le _, by decide⟩, rfl,
    ⟨.fin false 0, by decide, rfl, by
      show (integralLimit Config.params).lt F32Num.zero = false
      unfold integralLimit
      split
      · rfl
      · split
        · rfl
        · exact Bool.eq_false_iff.mpr ‹_›⟩,
    Nat.succ_pos _⟩, _, rfl⟩

/-- The registry full, a lock and a detected configuration, about to take NOP. -/
def stickyState : State :=
  { withFaults .error [0x01, 0x06, 0x30] with
    fr := ⟨[0x01, 0x06, 0x30], true⟩
    det := { atReset.det with chamberCfg := .one, banks := ⟨⟨0, 4, true⟩, ⟨0, 0, true⟩⟩ }
    pins := [.ofCommand 0] }

theorem witness_StickyStateLeavesOnlyByReset : ¬TakesReset stickyState ∧ (0x01 : U8) ∈ stickyState.fr.faults ∧
    (0x06 : U8) ∈ stickyState.fr.faults ∧ stickyState.fr.overflow = true ∧
    (stickyState.det.banks.get .bank0).bankLock = true ∧ (stickyState.det.banks.get .bank1).bankLock = true ∧
    stickyState.det.chamberCfg ≠ .undetected := by
  unfold TakesReset; decide

theorem witness_StepKeepsTheOrderOfCodes : stickyState.fr.faults.Nodup ∧ ∃ t, step stickyState = .next t :=
  ⟨by decide, _, rfl⟩

theorem witness_OutputsMoveOnlyInTheirOperations : Instr.tick ≠ .sreset ∧ Instr.tick ≠ .xcross ∧ Instr.tick ≠ .ctrl ∧
    frameEnd.pm.zcPending ≠ true ∧ (inErrorWait 1).ctrlCnt = 0 := by decide

theorem witness_UnitsFlagIsNeverRead : nextEvent (presented 0x011300000000).pins ≠ .command (encode (.rdreg 0x12)) ∧
    ∃ t, step (presented 0x011300000000) = .next t := ⟨by decide, _, rfl⟩

theorem witness_PreviousStatusIsNeverRead : nextEvent (presented 0x010100000000).pins ≠ .command (encode (.rdreg 0x00)) ∧
    ∃ t, step (presented 0x010100000000) = .next t := ⟨by decide, _, rfl⟩

end Sys2Proof.Tests
end

/-! SUPPORT. The register space (`10_state.md` rules R30 to R50, `45_system.md` rules R201 and R202): what RDREG and
WRREG answer, by what the map has at the address, and where the fields of a register's word stand; then STATUS, the
control state, the settings and the collaborator inputs. -/

namespace Sys2Proof.Machine

/-! ### Reading and writing by address -/

theorem exec_rdreg_of_mapped {a : U8} {r : Reg} (h : Reg.ofAddr Config.params a = some r) (s : State) :
    exec (.rdreg a) s = .next { s with rsp := some ⟨false, regRead s r⟩ } := by
  simp [exec, execRdreg, opRdreg, h, State.respond]

/-- An address with nothing mapped and an address with an RO register are refused alike (rule R67). -/
theorem exec_wrreg_of_not_writable {a : U8} (h : (Reg.ofAddr Config.params a).any Reg.writable = false) (v : Word)
    (s : State) : exec (.wrreg a v) s = .next { s with rsp := some ⟨true, 0⟩ } := by
  cases hr : Reg.ofAddr Config.params a with
  | none => simp [exec, execWrreg, opWrreg, hr, State.refuse]
  | some r =>
    have hro : r.writable = false := by simpa [hr] using h
    simp [exec, execWrreg, opWrreg, hr, hro, State.refuse]

/-- An RW register other than MODE takes every value (rule R202). -/
theorem exec_wrreg_of_writable {a : U8} {r : Reg} (h : Reg.ofAddr Config.params a = some r)
    (hw : r.writable = true) (hm : r ≠ .mode) (v : Word) (s : State) :
    exec (.wrreg a v) s = .next { regWrite s r v with rsp := some ⟨false, 0⟩ } := by
  simp [exec, execWrreg, opWrreg, h, hw, hm, State.respond]

/-- MODE takes the values whose low byte is below N_MODES (rules R41 and R67). -/
theorem exec_wrreg_of_mode {a : U8} (h : Reg.ofAddr Config.params a = some .mode) (v : Word) (s : State) :
    exec (.wrreg a v) s =
      if v.toNat % 256 < Config.params.nModes then .next { regWrite s .mode v with rsp := some ⟨false, 0⟩ }
      else .next { s with rsp := some ⟨true, 0⟩ } := by
  have hlow : (v.extractLsb' 0 8).toNat = v.toNat % 256 := by simp
  by_cases hlt : v.toNat % 256 < Config.params.nModes
  · simp [exec, execWrreg, opWrreg, h, Reg.writable, hlow, hlt, Nat.not_le.mpr hlt, State.respond]
  · simp [exec, execWrreg, opWrreg, h, Reg.writable, hlow, hlt, Nat.not_lt.mp hlt, State.refuse]

/-! ### The map -/

/-- No address below the settings is RW (rule R66). -/
theorem Reg.not_writable_of_lt (P : Params) {a : U8} (h : a.toNat < 0x10) :
    (Reg.ofAddr P a).any Reg.writable = false := by
  have hmap : Reg.ofAddr P a = Reg.ofLow a.toNat := if_pos (by omega)
  have hlow : ∀ n < 0x10, (Reg.ofLow n).any Reg.writable = false := by decide
  rw [hmap]
  exact hlow _ h

theorem Reg.ofAddr_inTemp (P : Params) (ch : Channel) :
    Reg.ofAddr P (BitVec.ofNat 8 (0x28 + ch.toNat)) = some (.inTemp ch) := by cases ch <;> rfl

theorem Reg.ofAddr_inCount (P : Params) (ch : Channel) :
    Reg.ofAddr P (BitVec.ofNat 8 (0x30 + ch.toNat)) = some (.inCount ch) := by cases ch <;> rfl

/-! ### The fields of a register's word

A word is its fields joined by `++`, the most significant first, and a field is found by taking the lower ones off one
after the other. `Nat.reduceAdd` stays off: it would write the width of the join as one number, and the library's
lemmas about `++` know it as a sum. -/

theorem flaggedWord_fields (flag : Bool) (x : U16) :
    (flaggedWord flag x).extractLsb' 0 16 = x ∧ (flaggedWord flag x).getLsbD 16 = flag ∧
      (flaggedWord flag x).extractLsb' 17 15 = 0 := by
  simp [flaggedWord, BitVec.getLsbD_append, BitVec.extractLsb'_append_eq_of_le,
    BitVec.extractLsb'_append_eq_right, -Nat.reduceAdd, -BitVec.getLsbD_eq_getElem]

theorem inFlowWord_fields (i : SensorInputs) :
    (inFlowWord i).getLsbD 0 = i.flowPresent ∧ (inFlowWord i).getLsbD 1 = i.flowLow ∧
      (inFlowWord i).getLsbD 2 = i.reverseFlow ∧ (inFlowWord i).getLsbD 3 = i.avgDiffErr ∧
      (inFlowWord i).extractLsb' 4 28 = 0 := by
  simp [inFlowWord, BitVec.getLsbD_append, BitVec.extractLsb'_append_eq_of_le, -Nat.reduceAdd,
    -BitVec.getLsbD_eq_getElem]

theorem regRead_cycles_fields (s : State) :
    (regRead s .cycles).extractLsb' 0 16 = s.det.cycleCount ∧ (regRead s .cycles).extractLsb' 16 16 = s.ctrlCnt :=
  ⟨BitVec.extractLsb'_append_eq_right, BitVec.extractLsb'_append_eq_left⟩

theorem regRead_confirm_fields (s : State) :
    (regRead s .confirm).extractLsb' 0 8 = s.det.dryfireConfirm ∧
      (regRead s .confirm).extractLsb' 8 8 = s.det.iovConfirm ∧
      (regRead s .confirm).extractLsb' 16 8 = s.det.revConfirm ∧ (regRead s .confirm).extractLsb' 24 8 = 0 := by
  simp [regRead, BitVec.extractLsb'_append_eq_of_le, BitVec.extractLsb'_append_eq_of_add_le, -Nat.reduceAdd]

theorem regRead_scale_fields (s : State) (b : Bank) :
    (regRead s (.scale b)).extractLsb' 0 8 = (s.det.banks.get b).scaleConfirm ∧
      (regRead s (.scale b)).extractLsb' 8 8 = (s.det.banks.get b).scaleCnt ∧
      (regRead s (.scale b)).extractLsb' 16 16 = 0 := by
  simp [regRead, BitVec.extractLsb'_append_eq_of_le, BitVec.extractLsb'_append_eq_of_add_le, -Nat.reduceAdd]

/-! ### The statements -/

/-- Settles O17: IN_FLOW by its address, the channel registers by theirs for every channel. -/
theorem inputRegisters : Obligations.InputRegisters := by
  intro s v
  refine ⟨exec_wrreg_of_writable (r := .inFlow) rfl rfl nofun v s,
    ⟨_, exec_rdreg_of_mapped (r := .inFlow) rfl s, inFlowWord_fields s.inp⟩, fun ch => ⟨?_, ?_, ?_, ?_⟩⟩
  · exact exec_wrreg_of_writable (Reg.ofAddr_inTemp _ ch) rfl nofun v s
  · exact exec_wrreg_of_writable (Reg.ofAddr_inCount _ ch) rfl nofun v s
  · exact ⟨_, exec_rdreg_of_mapped (Reg.ofAddr_inTemp _ ch) s, flaggedWord_fields _ _⟩
  · exact ⟨_, exec_rdreg_of_mapped (Reg.ofAddr_inCount _ ch) s, flaggedWord_fields _ _⟩

/-- Settles O12: the fields of `statusWord` are the fifteen of rule R30. -/
theorem rdregStatusFields : Obligations.RdregStatusFields := by
  intro s
  refine ⟨fun v => exec_wrreg_of_not_writable (Reg.not_writable_of_lt _ (by decide)) v s, statusWord s,
    exec_rdreg_of_mapped (r := .status) rfl s, ?_⟩
  simp [statusWord, BitVec.getLsbD_append, BitVec.extractLsb'_append_eq_of_le,
    BitVec.extractLsb'_append_eq_of_add_le, -Nat.reduceAdd, -BitVec.getLsbD_eq_getElem]

/-- Settles O14: every address it names is below 0x10, and each register has its fields. -/
theorem rdregControlFields : Obligations.RdregControlFields := by
  intro s
  have below : ∀ a ∈ [(0x03 : U8), 0x04, 0x05, 0x06, 0x07, 0x08, 0x09, 0x0A, 0x0B], a.toNat < 0x10 := by decide
  exact ⟨fun a ha v => exec_wrreg_of_not_writable (Reg.not_writable_of_lt _ (below a ha)) v s,
    exec_rdreg_of_mapped (r := .shutdownCnt) rfl s, exec_rdreg_of_mapped (r := .errwaitCnt) rfl s,
    exec_rdreg_of_mapped (r := .dryfireTmr) rfl s, exec_rdreg_of_mapped (r := .tempwaitTmr) rfl s,
    exec_rdreg_of_mapped (r := .integral) rfl s,
    ⟨_, exec_rdreg_of_mapped (r := .cycles) rfl s, regRead_cycles_fields s⟩,
    ⟨_, exec_rdreg_of_mapped (r := .confirm) rfl s, regRead_confirm_fields s⟩,
    ⟨_, exec_rdreg_of_mapped (r := .scale .bank0) rfl s, regRead_scale_fields s .bank0⟩,
    ⟨_, exec_rdreg_of_mapped (r := .scale .bank1) rfl s, regRead_scale_fields s .bank1⟩⟩

/-- Settles O16: each register by its address, MODE by its own rule. -/
theorem settingsRegisters : Obligations.SettingsRegisters := fun s v =>
  ⟨exec_wrreg_of_writable (r := .target) rfl rfl nofun v s, exec_rdreg_of_mapped (r := .target) rfl s,
    exec_wrreg_of_mode rfl v s, exec_rdreg_of_mapped (r := .mode) rfl s,
    exec_wrreg_of_writable (r := .units) rfl rfl nofun v s, exec_rdreg_of_mapped (r := .units) rfl s,
    exec_wrreg_of_writable (r := .standbyEn) rfl rfl nofun v s, exec_rdreg_of_mapped (r := .standbyEn) rfl s,
    exec_wrreg_of_writable (r := .kp) rfl rfl nofun v s, exec_rdreg_of_mapped (r := .kp) rfl s,
    exec_wrreg_of_writable (r := .ki) rfl rfl nofun v s, exec_rdreg_of_mapped (r := .ki) rfl s,
    exec_wrreg_of_writable (r := .kdRise) rfl rfl nofun v s, exec_rdreg_of_mapped (r := .kdRise) rfl s,
    exec_wrreg_of_writable (r := .kdFall) rfl rfl nofun v s, exec_rdreg_of_mapped (r := .kdFall) rfl s⟩

end Sys2Proof.Machine

/-! SUPPORT. The Fault Registry operations (`40_fault_registry.md` rules R110 to R116): what FREPORT, FCLEAR, FEXISTS and
FCOUNT answer and leave of the state, by the cases of `frReport` and `frClear`. -/

namespace Sys2Proof.Machine

/-! ### FREPORT -/

theorem exec_freport (c : U8) (s : State) : exec (.freport c) s = .next (opFreport Config.params c s) := rfl

@[simp] theorem opFreport_zero (P : Params) (s : State) : opFreport P 0 s = { s with rsp := some ⟨true, 0⟩ } :=
  if_pos rfl

theorem opFreport_of_ne (P : Params) {c : U8} (hc : c ≠ 0) (s : State) :
    opFreport P c s = { s with fr := (frReport P s.fr c).1, rsp := some ⟨false, (frReport P s.fr c).2⟩ } :=
  if_neg hc

/-! ### FCLEAR -/

theorem exec_fclear (c : U8) (s : State) : exec (.fclear c) s = .next (opFclear c s) := rfl

@[simp] theorem opFclear_zero (s : State) : opFclear 0 s = { s with rsp := some ⟨true, 0⟩ } := if_pos rfl

theorem opFclear_of_ne {c : U8} (hc : c ≠ 0) (s : State) :
    opFclear c s = { s with fr := (frClear s.fr c).1, rsp := some ⟨false, (frClear s.fr c).2⟩ } :=
  if_neg hc

/-- Among the codes that are not refused, Class B is 1 to 6 (rule R87). -/
theorem not_mem_classB_iff {c : U8} (hc : c ≠ 0) : c ∉ Config.classB ↔ 6 < c.toNat := by
  have hpos : c.toNat ≠ 0 := fun h => hc (BitVec.eq_of_toNat_eq h)
  rw [mem_classB]
  omega

/-- Without duplicates, to remove the first entry of a code is to keep exactly the others, in their order. -/
theorem erase_eq_filter_ne {l : List U8} (h : l.Nodup) (c : U8) : l.erase c = l.filter (fun d => d ≠ c) := by
  rw [h.erase_eq_filter c]
  exact List.filter_congr fun d _ => by simp [bne, beq_eq_decide]

/-! ### FEXISTS and FCOUNT -/

theorem exec_fexists (c : U8) (s : State) : exec (.fexists c) s = .next (opFexists c s) := rfl

@[simp] theorem opFexists_zero (s : State) : opFexists 0 s = { s with rsp := some ⟨true, 0⟩ } := if_pos rfl

theorem opFexists_of_ne {c : U8} (hc : c ≠ 0) (s : State) :
    opFexists c s = { s with rsp := some ⟨false, bitWord (decide (c ∈ s.fr.faults))⟩ } :=
  if_neg hc

theorem encode_fexists_toNat (c : U8) : (encode (.fexists c)).toNat = 0x12 * 2 ^ 40 + c.toNat * 2 ^ 32 := by
  simp [encode, commandWord_toNat]

theorem exec_fcount (s : State) :
    exec .fcount s = .next { s with rsp := some ⟨false, BitVec.ofNat 32 s.fr.faults.length⟩ } := rfl

theorem faultCap_le (P : Params) : P.faultCap ≤ 16 := P.faultCapPred.isLt

/-- A count that fits the eight bits of register FCOUNT is read in full. -/
theorem regRead_fcount {s : State} (h : s.fr.faults.length < 256) :
    regRead s .fcount = BitVec.ofNat 32 s.fr.faults.length := by
  change (BitVec.ofNat 8 s.fr.faults.length).setWidth 32 = _
  apply BitVec.eq_of_toNat_eq
  simp only [BitVec.toNat_setWidth, BitVec.toNat_ofNat]
  omega

/-! ### The statements -/

/-- Settles O23: by the two cases of `frClear`, whose Class-B test is 1 to 6 and whose removal is a filter. -/
theorem fclearRemovesUnlessClassB : Obligations.FclearRemovesUnlessClassB := by
  intro c s hnodup
  rw [exec_fclear]
  by_cases hc : c = 0
  · rw [hc, opFclear_zero, if_pos rfl]
  · rw [opFclear_of_ne hc, if_neg hc]
    rcases frClear_cases s.fr c with ⟨hkeep, e⟩ | ⟨hB, hmem, e⟩
    · have hnot : ¬(6 < c.toNat ∧ c ∈ s.fr.faults) := by
        rintro ⟨hgt, hmem⟩
        exact hkeep.elim ((not_mem_classB_iff hc).mpr hgt) (fun hno => hno hmem)
      rw [e, if_neg hnot]
    · rw [e, if_pos ⟨(not_mem_classB_iff hc).mp hB, hmem⟩, erase_eq_filter_ne hnodup]

/-- Settles O22: by the three cases of `frReport`. -/
theorem freportAppendsOnce : Obligations.FreportAppendsOnce := by
  intro c s
  rw [exec_freport]
  by_cases hc : c = 0
  · rw [hc, opFreport_zero, if_pos rfl]
  · rw [opFreport_of_ne _ hc, if_neg hc]
    rcases frReport_cases Config.params s.fr c with ⟨hmem, e⟩ | ⟨hmem, hfull, e⟩ | ⟨hmem, hroom, e⟩
    · rw [e, if_pos hmem]
    · rw [e, if_neg hmem, if_pos hfull]
    · rw [e, if_neg hmem, if_neg hroom]

/-- Settles O24: the words by their fields, the answers by membership, the register by the capacity of at most 16. -/
theorem registryQueries : Obligations.RegistryQueries := by
  refine ⟨encode_fexists_toNat, rfl, fun c s => ?_, fun s => ⟨exec_fcount s, fun hcap => ?_⟩⟩
  · rw [exec_fexists]
    by_cases hc : c = 0
    · rw [hc, opFexists_zero, if_pos rfl]
    · rw [opFexists_of_ne hc, if_neg hc]
      by_cases hmem : c ∈ s.fr.faults <;> simp [hmem, bitWord]
  · have hfits : s.fr.faults.length < 256 := by
      have := faultCap_le Config.params
      omega
    rw [exec_rdreg_of_mapped (r := .fcount) rfl s, regRead_fcount hfits, exec_fcount]

end Sys2Proof.Machine

/-! SUPPORT. The thermistor check THCHK (`41_thermistor_check.md` rules R120 to R122): what one evaluation leaves in each
field of the state, and its report or clear as the FREPORT or FCLEAR command of the same code. -/

namespace Sys2Proof.Machine

/-! ### One evaluation, field by field -/

theorem thermistorCheck_openBit (P : Params) (ch : Channel) (s : State) :
    ((thermistorCheck P ch s).th.get ch).openBit =
      debounce P (isOpen (s.inp.counts.get ch)) (s.th.get ch).openBit := by
  simp [thermistorCheck]

theorem thermistorCheck_shortBit (P : Params) (ch : Channel) (s : State) :
    ((thermistorCheck P ch s).th.get ch).shortBit =
      debounce P (isShort (s.inp.counts.get ch)) (s.th.get ch).shortBit := by
  simp [thermistorCheck]

theorem thermistorCheck_th_of_ne (P : Params) {c ch : Channel} (h : c ≠ ch) (s : State) :
    (thermistorCheck P ch s).th.get c = s.th.get c :=
  PerChannel.get_set_of_ne _ _ h

/-- Rule R122: the code of the open bit first, then the code of the short bit, each by the bit just debounced. -/
theorem thermistorCheck_fr (P : Params) (ch : Channel) (s : State) :
    (thermistorCheck P ch s).fr =
      reportOrClear P ((thermistorCheck P ch s).th.get ch).shortBit.fault
        (reportOrClear P ((thermistorCheck P ch s).th.get ch).openBit.fault s.fr (openCode ch)) (shortCode ch) := by
  rw [thermistorCheck_openBit, thermistorCheck_shortBit]
  rfl

@[simp] theorem thermistorCheck_pm (P : Params) (ch : Channel) (s : State) : (thermistorCheck P ch s).pm = s.pm := rfl

@[simp] theorem thermistorCheck_rc (P : Params) (ch : Channel) (s : State) : (thermistorCheck P ch s).rc = s.rc := rfl

@[simp] theorem thermistorCheck_det (P : Params) (ch : Channel) (s : State) :
    (thermistorCheck P ch s).det = s.det := rfl

@[simp] theorem thermistorCheck_ctrlCnt (P : Params) (ch : Channel) (s : State) :
    (thermistorCheck P ch s).ctrlCnt = s.ctrlCnt := rfl

@[simp] theorem thermistorCheck_set (P : Params) (ch : Channel) (s : State) :
    (thermistorCheck P ch s).set = s.set := rfl

@[simp] theorem thermistorCheck_inp (P : Params) (ch : Channel) (s : State) :
    (thermistorCheck P ch s).inp = s.inp := rfl

@[simp] theorem thermistorCheck_pins (P : Params) (ch : Channel) (s : State) :
    (thermistorCheck P ch s).pins = s.pins := rfl

/-! ### The registry commands that an evaluation stands for -/

theorem openCode_ne_zero (ch : Channel) : openCode ch ≠ 0 := by cases ch <;> decide

theorem shortCode_ne_zero (ch : Channel) : shortCode ch ≠ 0 := by cases ch <;> decide

/-- The report or clear of rule R122 does to the registry what the command FREPORT or FCLEAR of that code does. -/
theorem exec_freport_or_fclear (fault : Bool) {c : U8} (hc : c ≠ 0) (s : State) :
    ∃ t, exec (if fault then .freport c else .fclear c) s = .next t ∧
      t.fr = reportOrClear Config.params fault s.fr c := by
  cases fault with
  | true => exact ⟨_, exec_freport c s, by rw [opFreport_of_ne _ hc]; rfl⟩
  | false => exact ⟨_, exec_fclear c s, by rw [opFclear_of_ne hc]; rfl⟩

/-! ### THCHK -/

theorem opThchk_channel (P : Params) (ch : Channel) (s : State) :
    opThchk P (BitVec.ofNat 8 ch.toNat) s =
      (thermistorCheck P ch s).respond (thermistorAnswer ((thermistorCheck P ch s).th.get ch)) := by
  have hch : (BitVec.ofNat 8 ch.toNat).toNat = ch.toNat := by
    have := ch.toNat_lt
    rw [BitVec.toNat_ofNat]
    omega
  rw [opThchk, hch, Channel.ofNat?_toNat]

theorem exec_thchk (a : U8) (s : State) : exec (.thchk a) s = .next (opThchk Config.params a s) := rfl

/-- The answer of rule R122 as a number: the open bit at weight 1, the short bit at weight 2. -/
theorem thermistorAnswer_eq (t : ThermistorState) :
    thermistorAnswer t = BitVec.ofNat 32 (t.openBit.fault.toNat + 2 * t.shortBit.fault.toNat) := by
  have weights : ∀ o sh : Bool,
      ((0 : BitVec 30) ++ BitVec.ofBool sh ++ BitVec.ofBool o : Word) = BitVec.ofNat 32 (o.toNat + 2 * sh.toNat) := by
    decide
  exact weights _ _

/-- Settles O25: each bit is one `debounce` of its condition, the registry follows by the command of each code in turn,
and no other field is written. -/
theorem thchkDebouncesAndReports : Obligations.ThchkDebouncesAndReports := by
  intro ch s
  have hopen := thermistorCheck_openBit Config.params ch s
  have hshort := thermistorCheck_shortBit Config.params ch s
  rw [debounce_eq] at hopen hshort
  refine ⟨_, (exec_thchk _ s).trans (congrArg _ (opThchk_channel _ ch s)), hopen, hshort, ?registry, ?answer,
    fun c hc => thermistorCheck_th_of_ne _ hc s, ?frame⟩
  case registry =>
    obtain ⟨o, ho, hofr⟩ := exec_freport_or_fclear
      ((thermistorCheck Config.params ch s).th.get ch).openBit.fault (openCode_ne_zero ch) s
    obtain ⟨u, hu, hufr⟩ := exec_freport_or_fclear
      ((thermistorCheck Config.params ch s).th.get ch).shortBit.fault (shortCode_ne_zero ch) o
    exact ⟨o, u, ho, hu, by rw [State.respond_fr, thermistorCheck_fr, hufr, hofr]⟩
  case answer => rw [State.respond_rsp, State.respond_th, thermistorAnswer_eq]
  case frame => simp

end Sys2Proof.Machine

/-! SUPPORT. The crossing step XCROSS (`42_modulator.md` rules R131 to R135): its answer on the permitted and on the
inhibited path, and the crossings of one permitted frame. -/

namespace Sys2Proof.Machine

/-! ### The two paths -/

theorem permit_eq_false_iff (s : State) : permit s = false ↔ s.fr.faults ≠ [] ∨ ¬Heats s.rc.status := by
  rw [← Bool.not_eq_true, permit_iff, not_and_or]

/-- A permitted crossing drives both pins and the output-state flag with the bit at the row and index held before it;
where it completes the frame, quantising leaves them alone (rule R133). -/
theorem permittedPath_outputs (P : Params) (m : ModulatorState) :
    (permittedPath P m).opto0 = P.pattern m.powerMode.toNat m.crossingIndex.toNat ∧
      (permittedPath P m).opto1 = P.pattern m.powerMode.toNat m.crossingIndex.toNat ∧
      (permittedPath P m).optoStatus = P.pattern m.powerMode.toNat m.crossingIndex.toNat := by
  rcases permittedPath_cases P m with ⟨_, e⟩ | ⟨_, e⟩ <;> rw [e] <;> exact ⟨rfl, rfl, rfl⟩

/-- What a permitted crossing leaves alone: the duty and its forced value, the staging, and the event latch. -/
theorem permittedPath_frame (P : Params) (m : ModulatorState) :
    (permittedPath P m).dutyReq = m.dutyReq ∧ (permittedPath P m).forced = m.forced ∧
      (permittedPath P m).fcPending = m.fcPending ∧ (permittedPath P m).fcEn = m.fcEn ∧
      (permittedPath P m).fcVal = m.fcVal ∧ (permittedPath P m).zcPending = m.zcPending := by
  rcases permittedPath_cases P m with ⟨_, e⟩ | ⟨_, e⟩ <;> rw [e] <;> exact ⟨rfl, rfl, rfl, rfl, rfl, rfl⟩

theorem exec_xcross_of_permit {s : State} (h : permit s = true) :
    exec .xcross s =
      .next
        { s with
          pm := permittedPath Config.params s.pm
          rsp := some ⟨false, bitWord (Config.params.pattern s.pm.powerMode.toNat s.pm.crossingIndex.toNat)⟩ } := by
  obtain ⟨_, _, hstatus⟩ := permittedPath_outputs Config.params s.pm
  change Host.Outcome.next (opXcross Config.params s) = _
  rw [opXcross, crossing_of_permit _ h, ← hstatus]
  rfl

theorem exec_xcross_of_not_permit {s : State} (h : permit s = false) :
    exec .xcross s = .next { s with pm := inhibitPath s.pm, rsp := some ⟨false, 0⟩ } := by
  change Host.Outcome.next (opXcross Config.params s) = _
  rw [opXcross, crossing_of_not_permit _ h]
  rfl

/-! ### The end of a frame -/

theorem completingIndex_toNat (ph : Bool) : (completingIndex ph).toNat = if ph then 7 else 8 := by
  cases ph <;> rfl

theorem completingIndex_toNat_add_one (ph : Bool) : (completingIndex ph).toNat + 1 = frameLength ph := by
  cases ph <;> rfl

theorem frameLength_le (ph : Bool) : frameLength ph ≤ 9 := by cases ph <;> decide

/-- An index in range does not wrap around. -/
theorem index_add_one_toNat {i : U8} (h : i.toNat ≤ 8) : (i + 1).toNat = i.toNat + 1 := by
  bv_omega

/-- A crossing at the completing index returns to index 0 in the other phase, with the duty in force quantised
(rules R133, R134). -/
theorem permittedPath_of_completes (P : Params) {m : ModulatorState}
    (h : m.crossingIndex.toNat = (completingIndex m.offsetPhase).toNat) :
    (permittedPath P m).crossingIndex = 0 ∧ (permittedPath P m).offsetPhase = (!m.offsetPhase) ∧
      (permittedPath P m).powerMode = (quantise m).powerMode ∧
      (permittedPath P m).remainder = (quantise m).remainder := by
  rcases permittedPath_cases P m with ⟨_, e⟩ | ⟨hne, _⟩
  · rw [e]
    exact ⟨rfl, rfl, rfl, rfl⟩
  · exact absurd (BitVec.eq_of_toNat_eq h) hne

/-- A crossing at any other index goes on in the same row and phase (rule R133). -/
theorem permittedPath_of_not_completes (P : Params) {m : ModulatorState}
    (h : m.crossingIndex.toNat ≠ (completingIndex m.offsetPhase).toNat) :
    (permittedPath P m).crossingIndex = m.crossingIndex + 1 ∧ (permittedPath P m).offsetPhase = m.offsetPhase ∧
      (permittedPath P m).powerMode = m.powerMode ∧ (permittedPath P m).remainder = m.remainder := by
  rcases permittedPath_cases P m with ⟨heq, _⟩ | ⟨_, e⟩
  · exact absurd (congrArg BitVec.toNat heq) h
  · rw [e]
    exact ⟨rfl, rfl, rfl, rfl⟩

/-! ### One permitted frame -/

theorem repeatOp_succ {i : Instr} {n : Nat} {s t : State} (h : repeatOp i n s = .next t) :
    repeatOp i (n + 1) s = exec i t := by
  rw [repeatOp, h]

/-- `t` is a permitted state at index `k` of the frame that `s` is at the start of: row and phase are still those of
`s`. -/
structure AtCrossing (s : State) (k : Nat) (t : State) : Prop where
  permitted : permit t = true
  index : t.pm.crossingIndex.toNat = k
  phase : t.pm.offsetPhase = s.pm.offsetPhase
  row : t.pm.powerMode = s.pm.powerMode

/-- Before its last crossing a frame goes on to the next index. -/
theorem AtCrossing.next {s t : State} {k : Nat} (h : AtCrossing s k t) (hk : k + 1 < frameLength s.pm.offsetPhase) :
    ∃ u, exec .xcross t = .next u ∧ AtCrossing s (k + 1) u := by
  have hlast := completingIndex_toNat_add_one s.pm.offsetPhase
  have hle := frameLength_le s.pm.offsetPhase
  have hidx : t.pm.crossingIndex.toNat ≤ 8 := by
    rw [h.index]
    omega
  obtain ⟨hi, hp, hm, _⟩ := permittedPath_of_not_completes Config.params (m := t.pm)
    (by rw [h.index, h.phase]; omega)
  exact ⟨_, exec_xcross_of_permit h.permitted, h.permitted,
    by rw [hi, index_add_one_toNat hidx, h.index], hp.trans h.phase, hm.trans h.row⟩

/-- The first `k` crossings of a permitted frame lead to index `k` of it. -/
theorem repeatOp_xcross_atCrossing {s : State} (h : AtCrossing s 0 s) :
    ∀ {k : Nat}, k < frameLength s.pm.offsetPhase → ∃ t, repeatOp .xcross k s = .next t ∧ AtCrossing s k t
  | 0, _ => ⟨s, rfl, h⟩
  | k + 1, hk => by
    obtain ⟨t, ht, hat⟩ := repeatOp_xcross_atCrossing h (Nat.lt_of_succ_lt hk)
    obtain ⟨u, hu, hnext⟩ := hat.next hk
    exact ⟨u, (repeatOp_succ ht).trans hu, hnext⟩

/-! ### The statements -/

/-- Settles O28: the outputs and the frame of the permitted path, and its index, phase, row and remainder by whether it
completes the frame. -/
theorem xcrossDrivesTheTable : Obligations.XcrossDrivesTheTable := by
  intro s hfaults hheats hinv
  refine ⟨_, exec_xcross_of_permit ((permit_iff s).mpr ⟨hfaults, hheats⟩), ?_⟩
  obtain ⟨hopto0, hopto1, hstatus⟩ := permittedPath_outputs Config.params s.pm
  obtain ⟨hduty, hforced, hpending, hen, hval, hzc⟩ := permittedPath_frame Config.params s.pm
  refine ⟨rfl, hopto0, hopto1, hstatus, ?advance, hduty, hforced, hpending, hen, hval, hzc,
    rfl, rfl, rfl, rfl, rfl, rfl, rfl, rfl⟩
  rw [← completingIndex_toNat]
  split
  case isTrue hend =>
    obtain ⟨hi, hp, hm, hr⟩ := permittedPath_of_completes Config.params hend
    obtain ⟨hmode, hrest⟩ := quantise_toNat s.pm (dutyInForce_le hinv) hinv.remainder
    exact ⟨congrArg BitVec.toNat hi, hp, (congrArg BitVec.toNat hm).trans hmode,
      (congrArg BitVec.toNat hr).trans hrest⟩
  case isFalse hmid =>
    obtain ⟨hi, hp, hm, hr⟩ := permittedPath_of_not_completes Config.params hmid
    exact ⟨(congrArg BitVec.toNat hi).trans (index_add_one_toNat hinv.index), hp, hm, hr⟩

/-- Settles O29: crossing `k` of the frame starts at index `k` of the row in force, and the last one completes it. -/
theorem permittedFrameDrivesItsRow : Obligations.PermittedFrameDrivesItsRow := by
  intro s hfaults hheats hstart _
  have hat : AtCrossing s 0 s := ⟨(permit_iff s).mpr ⟨hfaults, hheats⟩, congrArg BitVec.toNat hstart, rfl, rfl⟩
  have hlast := completingIndex_toNat_add_one s.pm.offsetPhase
  refine ⟨fun k hk => ?columns, ?lastCrossing⟩
  case columns =>
    obtain ⟨t, ht, hcol⟩ := repeatOp_xcross_atCrossing hat hk
    have hout := permittedPath_outputs Config.params t.pm
    rw [hcol.row, hcol.index] at hout
    exact ⟨_, (repeatOp_succ ht).trans (exec_xcross_of_permit hcol.permitted), hout⟩
  case lastCrossing =>
    obtain ⟨t, ht, hend⟩ := repeatOp_xcross_atCrossing hat (Nat.lt_of_succ_le hlast.le)
    obtain ⟨hi, hp, _, _⟩ := permittedPath_of_completes Config.params (m := t.pm) (by rw [hend.index, hend.phase])
    rw [← hlast]
    exact ⟨_, (repeatOp_succ ht).trans (exec_xcross_of_permit hend.permitted), hi, by rw [hp, hend.phase]⟩

/-- Settles O27: such a state is not permitted, and the inhibit path gives exactly these values. -/
theorem xcrossInhibits : Obligations.XcrossInhibits := fun s h =>
  exec_xcross_of_not_permit ((permit_eq_false_iff s).mpr h)

end Sys2Proof.Machine

/-! SUPPORT. The control cycle CTRL (`43_relay_control.md` rules R150 to R176): the state its logic starts from, the
status that the logic of each state leads to, and from these the statements about a whole cycle. -/

namespace Sys2Proof.Machine

/-! ### The answer of CTRL

C6 adds the relays to the relay state that C5 leaves, so every other field of it is C5's. -/

/-- The state after step C3 and the dry-fire transition of rule R157. -/
def afterDryFire (P : Params) (s : State) : State := dryFireTransition P (detectors P s)

/-- The state after step C4, from which the logic of one state runs. -/
def beforeLogic (P : Params) (s : State) : State := overrides P (detectors P s)

theorem ctrlAnswers_opCtrl (P : Params) (s : State) : CtrlAnswers P s (opCtrl P s) :=
  ⟨rfl, by rintro rfl; rfl⟩

@[simp] theorem opCtrl_th (P : Params) (s : State) : (opCtrl P s).th = s.th := by simp [opCtrl]

@[simp] theorem opCtrl_ctrlCnt (P : Params) (s : State) : (opCtrl P s).ctrlCnt = s.ctrlCnt := by simp [opCtrl]

@[simp] theorem opCtrl_set (P : Params) (s : State) : (opCtrl P s).set = s.set := by simp [opCtrl]

@[simp] theorem opCtrl_inp (P : Params) (s : State) : (opCtrl P s).inp = s.inp := by simp [opCtrl]

@[simp] theorem opCtrl_pins (P : Params) (s : State) : (opCtrl P s).pins = s.pins := by simp [opCtrl]

theorem opCtrl_rsp (P : Params) (s : State) :
    (opCtrl P s).rsp = some ⟨false, (opCtrl P s).rc.status.code.setWidth 32⟩ := by
  rw [opCtrl, State.respond_rsp, State.respond_rc]

theorem opCtrl_det (P : Params) (s : State) :
    (opCtrl P s).det = { (detectors P s).det with history := .build (historyStep s) } := controlCycle_det P s

theorem opCtrl_pm (P : Params) (s : State) :
    (opCtrl P s).pm =
      { (bookkeeping s).pm with
        dutyReq :=
          dutyRequest P (stateLogic P (beforeLogic P s)).1.status (stateLogic P (beforeLogic P s)).2 s.pm.dutyReq } :=
  controlCycle_pm P s

theorem opCtrl_rc (P : Params) (s : State) : (opCtrl P s).rc = (logicAndOutputs P (beforeLogic P s)).rc :=
  controlCycle_rc P s

@[simp] theorem opCtrl_fr (P : Params) (s : State) : (opCtrl P s).fr = (detectors P s).fr := controlCycle_fr P s

theorem opCtrl_status (P : Params) (s : State) :
    (opCtrl P s).rc.status = (stateLogic P (beforeLogic P s)).1.status := by
  rw [opCtrl_rc, logicAndOutputs_rc]

theorem opCtrl_previousStatus (P : Params) (s : State) :
    (opCtrl P s).rc.previousStatus = (stateLogic P (beforeLogic P s)).1.previousStatus := by
  rw [opCtrl_rc, logicAndOutputs_rc]

theorem opCtrl_integral (P : Params) (s : State) :
    (opCtrl P s).rc.integral = (stateLogic P (beforeLogic P s)).1.integral := by
  rw [opCtrl_rc, logicAndOutputs_rc]

theorem opCtrl_shutdownCounter (P : Params) (s : State) :
    (opCtrl P s).rc.shutdownCounter = (stateLogic P (beforeLogic P s)).1.shutdownCounter := by
  rw [opCtrl_rc, logicAndOutputs_rc]

theorem opCtrl_errorWaitCounter (P : Params) (s : State) :
    (opCtrl P s).rc.errorWaitCounter = (stateLogic P (beforeLogic P s)).1.errorWaitCounter := by
  rw [opCtrl_rc, logicAndOutputs_rc]

theorem opCtrl_dryFireWaitTimer (P : Params) (s : State) :
    (opCtrl P s).rc.dryFireWaitTimer = (stateLogic P (beforeLogic P s)).1.dryFireWaitTimer := by
  rw [opCtrl_rc, logicAndOutputs_rc]

theorem opCtrl_tempWaitTimer (P : Params) (s : State) :
    (opCtrl P s).rc.tempWaitTimer = (stateLogic P (beforeLogic P s)).1.tempWaitTimer := by
  rw [opCtrl_rc, logicAndOutputs_rc]

theorem opCtrl_lowflowSel (P : Params) (s : State) :
    (opCtrl P s).rc.lowflowSel = (stateLogic P (beforeLogic P s)).1.lowflowSel := by
  rw [opCtrl_rc, logicAndOutputs_rc]

theorem opCtrl_shutdownFlag (P : Params) (s : State) :
    (opCtrl P s).rc.shutdownFlag = (stateLogic P (beforeLogic P s)).1.shutdownFlag := by
  rw [opCtrl_rc, logicAndOutputs_rc]

/-! ### The state after the detectors -/

@[simp] theorem detectors_status (P : Params) (s : State) : (detectors P s).rc.status = s.rc.status := by
  rw [detectors_rc]

@[simp] theorem detectors_previousStatus (P : Params) (s : State) :
    (detectors P s).rc.previousStatus = s.rc.previousStatus := by rw [detectors_rc]

@[simp] theorem detectors_integral (P : Params) (s : State) : (detectors P s).rc.integral = s.rc.integral := by
  rw [detectors_rc]

@[simp] theorem detectors_shutdownCounter (P : Params) (s : State) :
    (detectors P s).rc.shutdownCounter = s.rc.shutdownCounter := by rw [detectors_rc]

@[simp] theorem detectors_errorWaitCounter (P : Params) (s : State) :
    (detectors P s).rc.errorWaitCounter = s.rc.errorWaitCounter := by rw [detectors_rc]

@[simp] theorem detectors_dryFireWaitTimer (P : Params) (s : State) :
    (detectors P s).rc.dryFireWaitTimer = s.rc.dryFireWaitTimer := by rw [detectors_rc]

@[simp] theorem detectors_tempWaitTimer (P : Params) (s : State) :
    (detectors P s).rc.tempWaitTimer = s.rc.tempWaitTimer := by rw [detectors_rc]

@[simp] theorem detectors_lowflowSel (P : Params) (s : State) :
    (detectors P s).rc.lowflowSel = s.rc.lowflowSel := by rw [detectors_rc]

@[simp] theorem wantStandby_detectors (P : Params) (s : State) : wantStandby P (detectors P s) = wantStandby P s := by
  unfold wantStandby satisfied valid temp
  rw [detectors_inp, detectors_set, detectors_dryFireWaitTimer]

@[simp] theorem statusByFlow_detectors (P : Params) (s : State) : statusByFlow (detectors P s) = statusByFlow s := by
  simp [statusByFlow]

theorem outletOver_congr {P : Params} {s t : State} (hi : t.inp = s.inp) (hset : t.set = s.set) :
    OutletOver P t ↔ OutletOver P s := by
  rw [OutletOver, OutletOver, hi, hset]

/-- The dry-fire transition acts in a cycle when its condition holds after the detectors. -/
theorem dryFireActs_iff (P : Params) (s : State) :
    DryFireActs P s (opCtrl P s) ↔
      P.confirmN ≤ (detectors P s).det.dryfireConfirm.toNat ∧ Heats (detectors P s).rc.status := by
  rw [DryFireActs, opCtrl_det, detectors_status, and_comm]

/-! ### The dry-fire transition in a cycle (rule R157) -/

@[simp] theorem afterDryFire_fr (P : Params) (s : State) : (afterDryFire P s).fr = (detectors P s).fr :=
  dryFireTransition_fr P _

@[simp] theorem afterDryFire_inp (P : Params) (s : State) : (afterDryFire P s).inp = s.inp := by simp [afterDryFire]

@[simp] theorem afterDryFire_set (P : Params) (s : State) : (afterDryFire P s).set = s.set := by simp [afterDryFire]

theorem afterDryFire_of_acts {P : Params} {s : State} (h : DryFireActs P s (opCtrl P s)) :
    (afterDryFire P s).rc =
      enter P (if s.rc.status = .standbyHeat then .standbyCool else .dryFireWait)
        { (detectors P s).rc with dryFireWaitTimer := P.dryfireDwell } := by
  rw [afterDryFire, dryFireTransition_of_dryFire P ((dryFireActs_iff P s).mp h), detectors_status]

theorem afterDryFire_of_not {P : Params} {s : State} (h : ¬DryFireActs P s (opCtrl P s)) :
    afterDryFire P s = detectors P s :=
  dryFireTransition_of_not P fun h' => h ((dryFireActs_iff P s).mpr h')

/-- Whether it acts or not, the dry-fire transition is the timer with its value after it, and one `enter`. -/
theorem afterDryFire_rc (P : Params) (s : State) :
    (afterDryFire P s).rc =
      enter P (afterDryFire P s).rc.status
        { (detectors P s).rc with dryFireWaitTimer := (afterDryFire P s).rc.dryFireWaitTimer } := by
  by_cases h : DryFireActs P s (opCtrl P s)
  · rw [afterDryFire_of_acts h, enter_status, enter_dryFireWaitTimer]
  · rw [afterDryFire_of_not h, enter_self P (detectors P s).rc]

theorem afterDryFire_status_of_acts {P : Params} {s : State} (h : DryFireActs P s (opCtrl P s)) :
    (afterDryFire P s).rc.status = if s.rc.status = .standbyHeat then .standbyCool else .dryFireWait := by
  rw [afterDryFire_of_acts h, enter_status]

theorem afterDryFire_dryFireWaitTimer_of_acts {P : Params} {s : State} (h : DryFireActs P s (opCtrl P s)) :
    (afterDryFire P s).rc.dryFireWaitTimer = P.dryfireDwell := by
  rw [afterDryFire_of_acts h, enter_dryFireWaitTimer]

/-- The dry-fire transition enters no state but StandbyCool and DryFireWait, and leaves heating states only. -/
theorem afterDryFire_status_cases (P : Params) (s : State) :
    (Heats s.rc.status ∧
        ((afterDryFire P s).rc.status = .standbyCool ∨ (afterDryFire P s).rc.status = .dryFireWait)) ∨
      (afterDryFire P s).rc.status = s.rc.status := by
  by_cases h : DryFireActs P s (opCtrl P s)
  · rw [afterDryFire_status_of_acts h]
    exact .inl ⟨h.1, (ite_eq_or_eq ..).imp id id⟩
  · rw [afterDryFire_of_not h, detectors_status]
    exact .inr rfl

/-- The dry-fire transition neither enters nor leaves the states that rule R159 asks about. -/
theorem afterDryFire_status_eq_iff (P : Params) (s : State) {st : Status}
    (hst : st = .error ∨ st = .errorWait ∨ st = .tempWait) :
    (afterDryFire P s).rc.status = st ↔ s.rc.status = st := by
  rcases afterDryFire_status_cases P s with ⟨hheats, hmid⟩ | hmid
  · have hstart : s.rc.status ≠ st := by
      rintro rfl
      rcases hst with e | e | e <;> simp [Heats, e] at hheats
    have hend : (afterDryFire P s).rc.status ≠ st := by
      rcases hmid with e | e <;> rcases hst with rfl | rfl | rfl <;> simp [e]
    exact iff_of_false hend hstart
  · rw [hmid]

theorem afterDryFire_previousStatus (P : Params) (s : State) :
    (afterDryFire P s).rc.previousStatus =
      if (afterDryFire P s).rc.status ≠ s.rc.status then s.rc.status else s.rc.previousStatus := by
  rw [afterDryFire_rc, enter_previousStatus, enter_status]
  simp

/-- What the dry-fire transition leaves alone: the states it enters load no other timer and do not turn the relays. -/
theorem afterDryFire_frame (P : Params) (s : State) :
    (afterDryFire P s).rc.shutdownCounter = s.rc.shutdownCounter ∧
      (afterDryFire P s).rc.errorWaitCounter = s.rc.errorWaitCounter ∧
      (afterDryFire P s).rc.tempWaitTimer = s.rc.tempWaitTimer ∧
      (afterDryFire P s).rc.lowflowSel = s.rc.lowflowSel ∧ (afterDryFire P s).rc.integral = s.rc.integral ∧
      (afterDryFire P s).rc.shutdownFlag = (detectors P s).rc.shutdownFlag := by
  by_cases h : DryFireActs P s (opCtrl P s)
  · rw [afterDryFire_of_acts h]
    split <;>
      simp [enter_shutdownCounter, enter_errorWaitCounter, enter_tempWaitTimer, enter_lowflowSel]
  · simp [afterDryFire_of_not h]

/-! ### The overrides in a cycle (rules R158, R159) -/

@[simp] theorem beforeLogic_fr (P : Params) (s : State) : (beforeLogic P s).fr = (detectors P s).fr :=
  overrides_fr P _

@[simp] theorem beforeLogic_inp (P : Params) (s : State) : (beforeLogic P s).inp = s.inp := by simp [beforeLogic]

@[simp] theorem beforeLogic_set (P : Params) (s : State) : (beforeLogic P s).set = s.set := by simp [beforeLogic]

theorem beforeLogic_rc_of_fault {P : Params} {s : State} (h : (opCtrl P s).fr.faults ≠ []) :
    (beforeLogic P s).rc = enter P .error (afterDryFire P s).rc :=
  overrides_rc_of_fault P (by simpa using h)

theorem beforeLogic_rc_of_over {P : Params} {s : State} (hf : (opCtrl P s).fr.faults = []) (ho : OutletOver P s)
    (he : (afterDryFire P s).rc.status ≠ .error) (hw : (afterDryFire P s).rc.status ≠ .errorWait) :
    (beforeLogic P s).rc = enter P .tempWait (afterDryFire P s).rc := by
  rw [opCtrl_fr] at hf
  have hover : OutletOver P (afterDryFire P s) := (outletOver_congr (by simp) (by simp)).mpr ho
  rw [beforeLogic, overrides_of_no_fault P hf]
  exact congrArg State.rc (ceilingOverride_of_over P (by simpa using hf) hover he hw)

theorem beforeLogic_of_no_override {P : Params} {s : State} (hf : (opCtrl P s).fr.faults = [])
    (h : ¬OutletOver P s ∨ (afterDryFire P s).rc.status = .error ∨ (afterDryFire P s).rc.status = .errorWait) :
    beforeLogic P s = afterDryFire P s := by
  rw [opCtrl_fr] at hf
  have hover : OutletOver P (afterDryFire P s) ↔ OutletOver P s := outletOver_congr (by simp) (by simp)
  rw [beforeLogic, overrides_of_no_fault P hf]
  exact ceilingOverride_of_not P (h.imp_left (mt hover.mp))

/-- What C4 can do after the dry-fire transition: force Error, force TempWait, or nothing. -/
theorem beforeLogic_cases (P : Params) (s : State) :
    (beforeLogic P s).rc = enter P .error (afterDryFire P s).rc ∨
      (beforeLogic P s).rc = enter P .tempWait (afterDryFire P s).rc ∨ beforeLogic P s = afterDryFire P s := by
  by_cases hf : (opCtrl P s).fr.faults = []
  · by_cases h : ¬OutletOver P s ∨ (afterDryFire P s).rc.status = .error ∨ (afterDryFire P s).rc.status = .errorWait
    · exact .inr (.inr (beforeLogic_of_no_override hf h))
    · push Not at h
      obtain ⟨ho, he, hw⟩ := h
      exact .inr (.inl (beforeLogic_rc_of_over hf ho he hw))
  · exact .inl (beforeLogic_rc_of_fault hf)

/-- Whatever they do, the overrides are one `enter`. -/
theorem beforeLogic_rc (P : Params) (s : State) :
    (beforeLogic P s).rc = enter P (beforeLogic P s).rc.status (afterDryFire P s).rc := by
  rcases beforeLogic_cases P s with h | h | h
  · rw [h, enter_status]
  · rw [h, enter_status]
  · rw [h, enter_self]

theorem beforeLogic_status_cases (P : Params) (s : State) :
    (beforeLogic P s).rc.status = .error ∨ (beforeLogic P s).rc.status = .tempWait ∨
      beforeLogic P s = afterDryFire P s :=
  (beforeLogic_cases P s).imp (fun h => by rw [h, enter_status]) (Or.imp_left fun h => by rw [h, enter_status])

theorem beforeLogic_previousStatus (P : Params) (s : State) :
    (beforeLogic P s).rc.previousStatus =
      if (beforeLogic P s).rc.status ≠ (afterDryFire P s).rc.status then (afterDryFire P s).rc.status
      else (afterDryFire P s).rc.previousStatus := by
  rw [beforeLogic_rc, enter_previousStatus, enter_status]
  simp

@[simp] theorem beforeLogic_dryFireWaitTimer (P : Params) (s : State) :
    (beforeLogic P s).rc.dryFireWaitTimer = (afterDryFire P s).rc.dryFireWaitTimer := by
  rw [beforeLogic_rc, enter_dryFireWaitTimer]

theorem beforeLogic_tempWaitTimer_of_ne {P : Params} {s : State} (h : (beforeLogic P s).rc.status ≠ .tempWait) :
    (beforeLogic P s).rc.tempWaitTimer = s.rc.tempWaitTimer := by
  obtain ⟨_, _, htemp, _⟩ := afterDryFire_frame P s
  rw [beforeLogic_rc, enter_tempWaitTimer, if_neg fun h' => h h'.1, htemp]

/-- Where the override entered TempWait its dwell is loaded. -/
theorem beforeLogic_tempWaitTimer_toNat {P : Params} {s : State} (h : (beforeLogic P s).rc.status = .tempWait) :
    (beforeLogic P s).rc.tempWaitTimer.toNat =
      if (afterDryFire P s).rc.status = .tempWait then s.rc.tempWaitTimer.toNat else P.tempwaitDwell.toNat := by
  obtain ⟨_, _, htemp, _⟩ := afterDryFire_frame P s
  rw [beforeLogic_rc, enter_tempWaitTimer, h, htemp]
  by_cases hmid : (afterDryFire P s).rc.status = .tempWait <;> simp [hmid]

/-- What C4 leaves alone. -/
theorem beforeLogic_frame (P : Params) (s : State) :
    (beforeLogic P s).rc.shutdownCounter = s.rc.shutdownCounter ∧
      (beforeLogic P s).rc.errorWaitCounter = s.rc.errorWaitCounter ∧
      (beforeLogic P s).rc.lowflowSel = s.rc.lowflowSel ∧ (beforeLogic P s).rc.integral = s.rc.integral ∧
      (beforeLogic P s).rc.shutdownFlag = (detectors P s).rc.shutdownFlag := by
  obtain ⟨hshut, herr, _, hsel, hint, hflag⟩ := afterDryFire_frame P s
  rw [← hshut, ← herr, ← hsel, ← hint, ← hflag]
  rcases beforeLogic_cases P s with h | h | h <;> rw [h] <;>
    simp [enter_shutdownCounter, enter_errorWaitCounter, enter_lowflowSel]

/-- Where neither an override nor the dry-fire transition acts, the logic runs on what the detectors left. -/
theorem beforeLogic_of_undisturbed {P : Params} {s : State} (hf : (opCtrl P s).fr.faults = [])
    (ho : ¬OutletOver P s ∨ s.rc.status = .error ∨ s.rc.status = .errorWait)
    (hd : ¬DryFireActs P s (opCtrl P s)) : beforeLogic P s = detectors P s := by
  have hmid := afterDryFire_of_not hd
  rw [beforeLogic_of_no_override hf (by rwa [hmid, detectors_status]), hmid]

/-- C4 enters no heating state, so a logic that starts in one runs on what the detectors left. -/
theorem beforeLogic_of_heats {P : Params} {s : State} (h : Heats (beforeLogic P s).rc.status) :
    beforeLogic P s = detectors P s ∧ ¬DryFireActs P s (opCtrl P s) := by
  have hb : beforeLogic P s = afterDryFire P s := by
    rcases beforeLogic_status_cases P s with e | e | e
    · simp [Heats, e] at h
    · simp [Heats, e] at h
    · exact e
  have hd : ¬DryFireActs P s (opCtrl P s) := fun hd => by
    rw [hb, afterDryFire_status_of_acts hd] at h
    split at h <;> simp [Heats] at h
  exact ⟨hb.trans (afterDryFire_of_not hd), hd⟩

/-- A confirmed dry-fire acts in the heating states only. -/
theorem not_dryFireActs_of_not_heats {P : Params} {s t : State} (h : ¬Heats s.rc.status) : ¬DryFireActs P s t :=
  fun hd => h hd.1

theorem not_dryFireActs_of_unconfirmed {P : Params} {s t : State} (h : t.det.dryfireConfirm.toNat < P.confirmN) :
    ¬DryFireActs P s t :=
  fun hd => Nat.not_le.mpr h hd.2

/-! ### The status each logic leads to (rules R162 to R171) -/

@[simp] theorem enterByFlow_status (P : Params) (s : State) (r : RelayState) :
    (enterByFlow P s r).status = statusByFlow s := enter_status ..

@[simp] theorem enterOnFlow_status (P : Params) (r : RelayState) :
    (enterOnFlow P r).status = if r.dryFireWaitTimer = 0 then .running else .dryFireWait := by
  rw [enterOnFlow, enter_status, ite_not]

theorem stateLogic_status_of_initial (P : Params) {s : State} (h : s.rc.status = .initial) :
    (stateLogic P s).1.status =
      if s.inp.flowPresent then (if s.rc.dryFireWaitTimer = 0 then .running else .dryFireWait)
      else .standbyCool := by
  simp only [stateLogic, h, logicInitial]
  split <;> simp

/-- Running and LowFlow have the same exits: the PID step, where it runs, leaves the status. -/
theorem stateLogic_status_of_running_or_lowFlow (P : Params) {s : State}
    (h : s.rc.status = .running ∨ s.rc.status = .lowFlow) :
    (stateLogic P s).1.status =
      if s.inp.flowPresent = false ∨ s.rc.shutdownFlag = true then .shutdown
      else if s.inp.flowLow then .lowFlow
      else .running := by
  have hpid : (pidStep P s).1.status = s.rc.status := by rw [pidStep_rc]
  rcases h with h | h
  · simp only [stateLogic, h, logicRunning, Bool.or_eq_true, Bool.not_eq_true']
    split
    · simp
    · split <;> simp [hpid, h]
  · simp only [stateLogic, h, logicLowFlow, Bool.or_eq_true, Bool.not_eq_true']
    split
    · simp
    · cases s.inp.flowLow <;> simp [hpid, h]

theorem stateLogic_status_of_shutdown (P : Params) {s : State} (h : s.rc.status = .shutdown) :
    (stateLogic P s).1.status =
      if s.rc.shutdownCounter.toNat ≤ 1 then
        if s.inp.flowPresent then statusByFlow s else if wantStandby P s then .standbyHeat else .standbyCool
      else .shutdown := by
  simp only [stateLogic, h, logicShutdown, countDown_eq_zero]
  split
  · split
    · simp
    · split <;> simp
  · rfl

theorem stateLogic_status_of_standbyCool (P : Params) {s : State} (h : s.rc.status = .standbyCool) :
    (stateLogic P s).1.status =
      if s.inp.flowPresent then (if s.rc.dryFireWaitTimer = 0 then .running else .dryFireWait)
      else if wantStandby P s then .standbyHeat
      else .standbyCool := by
  simp only [stateLogic, h, logicStandbyCool]
  split
  · simp
  · split <;> simp [h]

theorem stateLogic_status_of_standbyHeat (P : Params) {s : State} (h : s.rc.status = .standbyHeat) :
    (stateLogic P s).1.status =
      if s.inp.flowPresent then statusByFlow s
      else if wantStandby P s then .standbyHeat
      else .standbyCool := by
  simp only [stateLogic, h, logicStandbyHeat]
  split
  · simp
  · cases wantStandby P s <;> simp [h]

theorem stateLogic_of_error (P : Params) {s : State} (h : s.rc.status = .error) :
    (stateLogic P s).1 = if s.fr.faults = [] then enter P .errorWait s.rc else s.rc := by
  simp only [stateLogic, h]
  split
  · exact leaveError_of_nil P _ ‹_›
  · exact leaveError_of_ne P _ ‹_›

theorem stateLogic_status_of_errorWait (P : Params) {s : State} (h : s.rc.status = .errorWait) :
    (stateLogic P s).1.status = if s.rc.errorWaitCounter.toNat ≤ 1 then .initial else .errorWait := by
  simp only [stateLogic, h, leaveErrorWait, countDown_eq_zero]
  split
  · simp
  · rfl

theorem stateLogic_status_of_dryFireWait (P : Params) {s : State} (h : s.rc.status = .dryFireWait) :
    (stateLogic P s).1.status =
      if s.inp.flowPresent then (if s.rc.dryFireWaitTimer.toNat ≤ 1 then statusByFlow s else .dryFireWait)
      else .shutdown := by
  simp only [stateLogic, h, logicDryFireWait, countDown_eq_zero]
  cases s.inp.flowPresent
  · simp
  · simp only [Bool.not_true, Bool.false_eq_true, if_false, if_true]
    split
    · simp
    · rfl

/-- TempWait with the outlet still over is kept, its dwell loaded again when it ends (rule R171). -/
theorem stateLogic_of_tempWait_of_over (P : Params) {s : State} (h : s.rc.status = .tempWait) (ho : OutletOver P s) :
    (stateLogic P s).1.status = .tempWait ∧
      (stateLogic P s).1.tempWaitTimer.toNat =
        if s.rc.tempWaitTimer.toNat ≤ 1 then P.tempwaitDwell.toNat else s.rc.tempWaitTimer.toNat - 1 := by
  simp only [stateLogic, h, logicTempWait, countDown_eq_zero, (overCeiling_iff P s).mpr ho, if_true]
  split
  · exact ⟨rfl, rfl⟩
  · exact ⟨rfl, countDown_toNat _⟩

/-- With the outlet back in range the end of the dwell leads to Initial. -/
theorem stateLogic_of_tempWait_of_not_over (P : Params) {s : State} (h : s.rc.status = .tempWait)
    (ho : ¬OutletOver P s) :
    (stateLogic P s).1.status = (if s.rc.tempWaitTimer.toNat ≤ 1 then .initial else .tempWait) ∧
      (stateLogic P s).1.tempWaitTimer.toNat = s.rc.tempWaitTimer.toNat - 1 := by
  have hover : overCeiling P s = false := Bool.eq_false_iff.mpr (mt (overCeiling_iff P s).mp ho)
  simp only [stateLogic, h, logicTempWait, countDown_eq_zero, hover]
  split
  · simp [enter_tempWaitTimer]
  · exact ⟨rfl, countDown_toNat _⟩

/-! ### A whole cycle: timers, saved status and relay selection (rules R160, R176) -/

theorem opCtrl_previousStatus_eq (P : Params) (s : State) :
    (opCtrl P s).rc.previousStatus =
      if (opCtrl P s).rc.status ≠ (beforeLogic P s).rc.status then (beforeLogic P s).rc.status
      else if (beforeLogic P s).rc.status ≠ (afterDryFire P s).rc.status then (afterDryFire P s).rc.status
      else if (afterDryFire P s).rc.status ≠ s.rc.status then s.rc.status
      else s.rc.previousStatus := by
  obtain ⟨hprev, _⟩ := stateLogic_entryEffects P (beforeLogic P s)
  rw [opCtrl_previousStatus, opCtrl_status, hprev, beforeLogic_previousStatus, afterDryFire_previousStatus]
  simp only [ne_eq, ite_not]

theorem opCtrl_lowflowSel_eq (P : Params) (s : State) :
    (opCtrl P s).rc.lowflowSel =
      if (opCtrl P s).rc.status = .lowFlow ∧ (beforeLogic P s).rc.status ≠ .lowFlow then !s.rc.lowflowSel
      else s.rc.lowflowSel := by
  obtain ⟨_, hsel, _⟩ := stateLogic_entryEffects P (beforeLogic P s)
  obtain ⟨_, _, hframe, _⟩ := beforeLogic_frame P s
  rw [opCtrl_lowflowSel, opCtrl_status, hsel, hframe]

theorem opCtrl_shutdownCounter_toNat (P : Params) (s : State) :
    (opCtrl P s).rc.shutdownCounter.toNat =
      if (opCtrl P s).rc.status = .shutdown ∧ (beforeLogic P s).rc.status ≠ .shutdown then P.shutdownGrace.toNat
      else if (beforeLogic P s).rc.status = .shutdown then s.rc.shutdownCounter.toNat - 1
      else s.rc.shutdownCounter.toNat := by
  obtain ⟨_, _, hshut, _⟩ := stateLogic_entryEffects P (beforeLogic P s)
  obtain ⟨hframe, _⟩ := beforeLogic_frame P s
  rw [opCtrl_shutdownCounter, opCtrl_status, hshut, hframe]

theorem opCtrl_errorWaitCounter_toNat (P : Params) (s : State) :
    (opCtrl P s).rc.errorWaitCounter.toNat =
      if (opCtrl P s).rc.status = .errorWait ∧ (beforeLogic P s).rc.status ≠ .errorWait then P.errorWaitDwell.toNat
      else if (beforeLogic P s).rc.status = .errorWait then s.rc.errorWaitCounter.toNat - 1
      else s.rc.errorWaitCounter.toNat := by
  obtain ⟨_, _, _, herr, _⟩ := stateLogic_entryEffects P (beforeLogic P s)
  obtain ⟨_, hframe, _⟩ := beforeLogic_frame P s
  rw [opCtrl_errorWaitCounter, opCtrl_status, herr, hframe]

theorem opCtrl_dryFireWaitTimer_toNat (P : Params) (s : State) :
    (opCtrl P s).rc.dryFireWaitTimer.toNat =
      if (beforeLogic P s).rc.status = .dryFireWait ∧ s.inp.flowPresent = true then
        (afterDryFire P s).rc.dryFireWaitTimer.toNat - 1
      else (afterDryFire P s).rc.dryFireWaitTimer.toNat := by
  obtain ⟨_, _, _, _, hdry, _⟩ := stateLogic_entryEffects P (beforeLogic P s)
  rw [opCtrl_dryFireWaitTimer, hdry, beforeLogic_inp, beforeLogic_dryFireWaitTimer]

theorem opCtrl_tempWaitTimer_of_ne {P : Params} {s : State} (h : (beforeLogic P s).rc.status ≠ .tempWait) :
    (opCtrl P s).rc.tempWaitTimer = s.rc.tempWaitTimer := by
  obtain ⟨_, _, _, _, _, htemp, _⟩ := stateLogic_entryEffects P (beforeLogic P s)
  rw [opCtrl_tempWaitTimer, htemp h, beforeLogic_tempWaitTimer_of_ne h]

/-- A cycle whose logic starts in TempWait: the dwell, loaded where the override entered it, is counted down in this
cycle already (rule R171). -/
theorem opCtrl_of_tempWait {P : Params} {s : State} (h : (beforeLogic P s).rc.status = .tempWait) :
    let n :=
      if (afterDryFire P s).rc.status = .tempWait then s.rc.tempWaitTimer.toNat else P.tempwaitDwell.toNat
    (OutletOver P s →
      (opCtrl P s).rc.status = .tempWait ∧
        (opCtrl P s).rc.tempWaitTimer.toNat = if n ≤ 1 then P.tempwaitDwell.toNat else n - 1) ∧
    (¬OutletOver P s →
      (opCtrl P s).rc.status = (if n ≤ 1 then .initial else .tempWait) ∧
        (opCtrl P s).rc.tempWaitTimer.toNat = n - 1) := by
  have hover : OutletOver P (beforeLogic P s) ↔ OutletOver P s := outletOver_congr (by simp) (by simp)
  rw [← beforeLogic_tempWaitTimer_toNat h, ← hover, opCtrl_status, opCtrl_tempWaitTimer]
  exact ⟨stateLogic_of_tempWait_of_over P h, stateLogic_of_tempWait_of_not_over P h⟩

/-- A cycle that changes the status, by C4 or by C5, leaves the integral. -/
theorem opCtrl_integral_of_change {P : Params} {s : State}
    (h : (opCtrl P s).rc.status ≠ (beforeLogic P s).rc.status ∨
      (beforeLogic P s).rc.status ≠ (afterDryFire P s).rc.status ∨ (afterDryFire P s).rc.status ≠ s.rc.status) :
    (opCtrl P s).rc.integral = s.rc.integral := by
  obtain ⟨_, _, _, _, _, _, hentry⟩ := stateLogic_entryEffects P (beforeLogic P s)
  obtain ⟨_, _, _, hframe, _⟩ := beforeLogic_frame P s
  rw [opCtrl_integral, ← hframe]
  by_cases hheats : Heats (beforeLogic P s).rc.status
  · obtain ⟨hb, hd⟩ := beforeLogic_of_heats hheats
    have hc4 : (beforeLogic P s).rc.status = s.rc.status := by rw [hb, detectors_status]
    have hmid : (afterDryFire P s).rc.status = s.rc.status := by rw [afterDryFire_of_not hd, detectors_status]
    exact hentry (h.resolve_right (by simp [hc4, hmid]))
  · refine (stateLogic_integral P (beforeLogic P s)).resolve_right fun ⟨_, _, _, hs⟩ => hheats ?_
    exact hs.imp And.left fun h => .inl h.1

/-! ### A whole cycle: relays and duty request (rules R172, R173) -/

theorem opCtrl_relays (P : Params) (s : State) : RelaysFollowStatus (opCtrl P s).rc := controlCycle_relays P s

theorem relays_open_of_not_heats {r : RelayState} (h : RelaysFollowStatus r) (hs : ¬Heats r.status) :
    r.relay0 = false ∧ r.relay1 = false := by
  rw [RelaysFollowStatus] at h
  cases hst : r.status <;> rw [hst] at h hs <;> simp_all [Heats]

theorem opCtrl_dutyReq (P : Params) (s : State) :
    (opCtrl P s).pm.dutyReq =
      dutyRequest P (opCtrl P s).rc.status (stateLogic P (beforeLogic P s)).2 s.pm.dutyReq := by
  rw [opCtrl_pm, opCtrl_status]

/-- The PID step runs only in a cycle that starts and ends in the same one of Running and LowFlow, with no dry-fire. -/
theorem pidOut_cases (P : Params) (s : State) :
    (stateLogic P (beforeLogic P s)).2 = none ∨
      ((opCtrl P s).rc.status = .running ∨ (opCtrl P s).rc.status = .lowFlow) ∧
        (opCtrl P s).rc.status = s.rc.status ∧ ¬DryFireActs P s (opCtrl P s) := by
  rw [or_iff_not_imp_left, opCtrl_status]
  intro hpid
  obtain ⟨d, hd⟩ := Option.ne_none_iff_exists'.mp hpid
  obtain ⟨hstart, hstay, _⟩ := stateLogic_pidOut P hd
  obtain ⟨hb, hdry⟩ := beforeLogic_of_heats (hstart.imp_right .inl)
  refine ⟨hstay ▸ hstart, ?_, hdry⟩
  rw [hstay, hb, detectors_status]

theorem opCtrl_dutyReq_of_standbyHeat {P : Params} {s : State} (h : (opCtrl P s).rc.status = .standbyHeat) :
    (opCtrl P s).pm.dutyReq.toNat = P.standbyDuty.val := by
  have hle := P.standbyDuty.isLt
  rcases pidOut_cases P s with hpid | ⟨hs, _⟩
  · simp only [opCtrl_dutyReq, hpid, h, dutyRequest, Config.dutyMax, BitVec.toNat_ofNat]
    omega
  · simp [h] at hs

theorem opCtrl_dutyReq_of_not_heats {P : Params} {s : State} (h : ¬Heats (opCtrl P s).rc.status) :
    (opCtrl P s).pm.dutyReq = 0 := by
  rcases pidOut_cases P s with hpid | ⟨hs, _⟩
  · rw [opCtrl_dutyReq, hpid]
    cases hst : (opCtrl P s).rc.status <;> simp_all [Heats, dutyRequest]
  · exact absurd (hs.imp_right .inl) h

theorem opCtrl_dutyReq_of_no_pid {P : Params} {s : State}
    (hs : (opCtrl P s).rc.status = .running ∨ (opCtrl P s).rc.status = .lowFlow)
    (hpid : (opCtrl P s).rc.status ≠ s.rc.status ∨ DryFireActs P s (opCtrl P s)) :
    (opCtrl P s).pm.dutyReq = s.pm.dutyReq := by
  rcases pidOut_cases P s with hnone | ⟨_, hsame, hdry⟩
  · rw [opCtrl_dutyReq, hnone]
    rcases hs with hs | hs <;> rw [hs] <;> rfl
  · exact absurd hpid (by simp [hsame, hdry])

/-! ### The statements -/

theorem validChambers_eq_length (s : State) :
    validChambers s =
      ([Channel.chamber0, .chamber1, .chamber2, .chamber3].filter
        fun ch => (s.inp.temps.get ch).detected).length := List.countP_eq_length_filter

/-- Settles O32: C0 and C7 are the only steps that write these, and no step writes the others. -/
theorem ctrlBookkeepingAndHistory : Obligations.CtrlBookkeepingAndHistory := by
  intro s
  obtain ⟨_, hexec⟩ := ctrlAnswers_opCtrl Config.params s
  refine ⟨_, hexec rfl, opCtrl_th _ s, opCtrl_ctrlCnt _ s, opCtrl_set _ s, opCtrl_inp _ s, opCtrl_pins _ s, ?_⟩
  rw [opCtrl_pm, bookkeeping_pm, opCtrl_det]
  refine ⟨rfl, rfl, rfl, rfl, rfl, rfl, rfl, rfl, rfl, rfl, ?count, rfl, rfl, fun ch => ?history⟩
  case count => exact (congrArg BitVec.toNat (detectors_cycleCount _ s)).trans (sat16Inc_toNat _)
  case history =>
    rw [PerChannel.get_build]
    exact ⟨rfl, rfl⟩

/-- Settles O33: the configuration after the detectors is the one after the cycle. -/
theorem ctrlDetectsChambersOnce : Obligations.CtrlDetectsChambersOnce := by
  intro P s
  refine ⟨_, ctrlAnswers_opCtrl P s, ?_⟩
  rw [opCtrl_det, ← validChambers_eq_length]
  exact detectors_chamberCfg P s

theorem inletOverOutlet_iff (s : State) :
    inletOverOutlet s = true ↔
      s.inp.temps.inlet.detected = true ∧ s.inp.temps.outlet.detected = true ∧
        s.inp.temps.outlet.temp.toInt < s.inp.temps.inlet.temp.toInt := by
  rw [inletOverOutlet, Bool.and_eq_true, Bool.and_eq_true, decide_eq_true_eq, and_assoc]
  rfl

/-- Settles O34: each confirm counter by its condition, and the flag from two of them. -/
theorem ctrlDetectsDryFireAndShutdown : Obligations.CtrlDetectsDryFireAndShutdown := by
  intro P s
  obtain ⟨hflag, _⟩ := stateLogic_frame P (beforeLogic P s)
  obtain ⟨_, _, _, _, hframe⟩ := beforeLogic_frame P s
  refine ⟨_, ctrlAnswers_opCtrl P s, ?_⟩
  rw [opCtrl_shutdownFlag, hflag, hframe, detectors_rc, opCtrl_det]
  simp only [detectors_dryfireConfirm, detectors_iovConfirm, detectors_revConfirm, confirmStep_toNat]
  refine ⟨fun h => if_pos ((dryFireNow_iff P s).mpr h), fun h => if_neg fun hnow => ?_,
    if_congr (inletOverOutlet_iff s) rfl rfl, trivial, by simp⟩
  obtain ⟨ch, hmem, hrise⟩ := (dryFireNow_iff P s).mp hnow
  exact h ch hmem hrise

/-- Settles O36: C4 enters Error, whose logic keeps it, and no timer but that of a confirmed dry-fire is loaded
before. -/
theorem ctrlFaultForcesError : Obligations.CtrlFaultForcesError := by
  intro P s
  refine ⟨_, ctrlAnswers_opCtrl P s, fun hf => ?_⟩
  have hc4 := beforeLogic_rc_of_fault hf
  have herr : (beforeLogic P s).rc.status = .error := by rw [hc4, enter_status]
  have hlogic : (stateLogic P (beforeLogic P s)).1 = (beforeLogic P s).rc := by
    rw [stateLogic_of_error P herr, if_neg (by simpa using hf)]
  have hstatus : (opCtrl P s).rc.status = .error := by rw [opCtrl_status, hlogic, herr]
  have hidle : ¬Heats (opCtrl P s).rc.status := by simp [hstatus, Heats]
  obtain ⟨hrelay0, hrelay1⟩ := relays_open_of_not_heats (opCtrl_relays P s) hidle
  obtain ⟨hshut, hwait, hsel, hint, _⟩ := beforeLogic_frame P s
  have hprev : (opCtrl P s).rc.previousStatus =
      if .error = (afterDryFire P s).rc.status then (afterDryFire P s).rc.previousStatus
      else (afterDryFire P s).rc.status := by
    rw [opCtrl_previousStatus, hlogic, hc4, enter_previousStatus]
  have hdry : (opCtrl P s).rc.dryFireWaitTimer = (afterDryFire P s).rc.dryFireWaitTimer := by
    rw [opCtrl_dryFireWaitTimer, hlogic, beforeLogic_dryFireWaitTimer]
  refine ⟨hstatus, hrelay0, hrelay1, opCtrl_dutyReq_of_not_heats hidle, ?_, ?_,
    opCtrl_tempWaitTimer_of_ne (by simp [herr]), ?_, ?_, fun hs => ?_, fun hs hno => ?_, fun hacts => ?_⟩
  · rw [opCtrl_shutdownCounter, hlogic, hshut]
  · rw [opCtrl_errorWaitCounter, hlogic, hwait]
  · rw [opCtrl_integral, hlogic, hint]
  · rw [opCtrl_lowflowSel, hlogic, hsel]
  · have hd : ¬DryFireActs P s (opCtrl P s) := not_dryFireActs_of_not_heats (by simp [hs, Heats])
    have hmid := afterDryFire_of_not hd
    rw [hprev, hdry, hmid]
    simp [hs]
  · have hmid := afterDryFire_of_not hno
    rw [hprev, hdry, hmid]
    simp [Ne.symm hs]
  · rw [hprev, hdry, afterDryFire_status_of_acts hacts, afterDryFire_dryFireWaitTimer_of_acts hacts]
    split <;> simp

/-- Settles O37: neither the ceiling nor the dry-fire acts in Error and ErrorWait. -/
theorem ctrlReturnsThroughErrorWait : Obligations.CtrlReturnsThroughErrorWait := by
  intro P s
  refine ⟨_, ctrlAnswers_opCtrl P s, fun hs hf => ?_, fun hs hf => ?_⟩
  · have hb := beforeLogic_of_undisturbed hf (.inr (.inl hs)) (not_dryFireActs_of_not_heats (by simp [hs, Heats]))
    have hlogic : (stateLogic P (beforeLogic P s)).1 = enter P .errorWait (detectors P s).rc := by
      rw [hb, stateLogic_of_error P (by simpa using hs), if_pos (by simpa using hf)]
    rw [opCtrl_status, opCtrl_previousStatus, opCtrl_errorWaitCounter, hlogic]
    simp [enter_previousStatus, enter_errorWaitCounter, hs]
  · have hb := beforeLogic_of_undisturbed hf (.inr (.inr hs)) (not_dryFireActs_of_not_heats (by simp [hs, Heats]))
    have hc4 : (beforeLogic P s).rc.status = .errorWait := by rw [hb, detectors_status, hs]
    have hstatus := stateLogic_status_of_errorWait P hc4
    obtain ⟨_, hwait, _⟩ := beforeLogic_frame P s
    rw [hwait, ← opCtrl_status] at hstatus
    refine ⟨by simp [opCtrl_errorWaitCounter_toNat, hc4], ?_⟩
    split
    case isTrue hend =>
      rw [if_pos hend] at hstatus
      exact ⟨hstatus, by simp [opCtrl_previousStatus_eq, hstatus, hc4]⟩
    case isFalse hrun => rwa [if_neg hrun] at hstatus

/-- Settles O38: C4 enters or keeps TempWait, and its logic runs in the same cycle. -/
theorem ctrlCeilingForcesTempWait : Obligations.CtrlCeilingForcesTempWait := by
  intro P s
  refine ⟨_, ctrlAnswers_opCtrl P s, fun hf he hw ho => ?_, fun hf hs ho => ?_⟩
  · have hmid {st : Status} := afterDryFire_status_eq_iff P s (st := st)
    have hc4 : (beforeLogic P s).rc.status = .tempWait := by
      rw [beforeLogic_rc_of_over hf ho (mt (hmid (.inl rfl)).mp he) (mt (hmid (.inr (.inl rfl))).mp hw),
        enter_status]
    obtain ⟨hover, _⟩ := opCtrl_of_tempWait hc4
    simpa only [hmid (.inr (.inr rfl))] using hover ho
  · have hd : ¬DryFireActs P s (opCtrl P s) := not_dryFireActs_of_not_heats (by simp [hs, Heats])
    have hmid : (afterDryFire P s).rc.status = .tempWait := by rw [afterDryFire_of_not hd, detectors_status, hs]
    have hc4 : (beforeLogic P s).rc.status = .tempWait := by rw [beforeLogic_of_no_override hf (.inl ho), hmid]
    obtain ⟨_, hback⟩ := opCtrl_of_tempWait hc4
    obtain ⟨hstatus, htimer⟩ := hback ho
    rw [if_pos hmid] at hstatus htimer
    refine ⟨htimer, ?_⟩
    split
    case isTrue hend => rw [hstatus, if_pos hend]
    case isFalse hrun => rw [hstatus, if_neg hrun]

/-- Settles O40: the exits of Initial, and those that Running and LowFlow share. -/
theorem ctrlLeavesInitialRunningLowFlow : Obligations.CtrlLeavesInitialRunningLowFlow := by
  intro P s
  refine ⟨_, ctrlAnswers_opCtrl P s, fun hf ho => ⟨fun hs => ?_, fun hd hs => ?_⟩⟩
  · have hb := beforeLogic_of_undisturbed hf (.inl ho) (not_dryFireActs_of_not_heats (by simp [hs, Heats]))
    rw [opCtrl_status, hb, stateLogic_status_of_initial P (by simpa using hs), detectors_inp,
      detectors_dryFireWaitTimer]
  · have hb := beforeLogic_of_undisturbed hf (.inl ho) (not_dryFireActs_of_unconfirmed hd)
    have hc4 : (beforeLogic P s).rc.status = s.rc.status := by rw [hb, detectors_status]
    obtain ⟨hflag, _⟩ := stateLogic_frame P (beforeLogic P s)
    refine ⟨?_, fun hshut => BitVec.eq_of_toNat_eq ?_, ?_⟩
    · rw [opCtrl_status, stateLogic_status_of_running_or_lowFlow P (by rwa [hc4]), beforeLogic_inp,
        opCtrl_shutdownFlag, hflag]
    · rw [opCtrl_shutdownCounter_toNat, hshut, hc4]
      rcases hs with hs | hs <;> simp [hs]
    · rw [opCtrl_lowflowSel_eq, hc4]
      rcases hs with hs | hs <;> simp [hs]

/-- Settles O41: the exits of each waiting state, and the timers of the two that have one. -/
theorem ctrlLeavesTheWaitingStates : Obligations.CtrlLeavesTheWaitingStates := by
  intro P s
  refine ⟨_, ctrlAnswers_opCtrl P s, fun hf ho => ?_⟩
  have hlogic (hd : ¬DryFireActs P s (opCtrl P s)) : beforeLogic P s = detectors P s :=
    beforeLogic_of_undisturbed hf (.inl ho) hd
  simp only [← wantStandby_iff]
  refine ⟨fun hs => ?shutdown, fun hs => ?standbyCool, fun hs hd => ?standbyHeat, fun hs => ?dryFireWait⟩
  case shutdown =>
    have hb := hlogic (not_dryFireActs_of_not_heats (by simp [hs, Heats]))
    have hstatus := stateLogic_status_of_shutdown P (s := beforeLogic P s) (by simp [hb, hs])
    rw [← opCtrl_status, hb] at hstatus
    refine ⟨by simp [opCtrl_shutdownCounter_toNat, hb, hs], fun hrun => ?_, fun hend => ?_⟩
    · simp [hstatus, hrun]
    · simp +contextual [hstatus, hend]
  case standbyCool =>
    have hb := hlogic (not_dryFireActs_of_not_heats (by simp [hs, Heats]))
    rw [opCtrl_status, hb, stateLogic_status_of_standbyCool P (by simpa using hs)]
    simp +contextual
  case standbyHeat =>
    have hb := hlogic (not_dryFireActs_of_unconfirmed hd)
    rw [opCtrl_status, hb, stateLogic_status_of_standbyHeat P (by simpa using hs)]
    simp +contextual
  case dryFireWait =>
    have hd : ¬DryFireActs P s (opCtrl P s) := not_dryFireActs_of_not_heats (by simp [hs, Heats])
    have hb := hlogic hd
    have hstatus := stateLogic_status_of_dryFireWait P (s := beforeLogic P s) (by simp [hb, hs])
    rw [← opCtrl_status, hb] at hstatus
    have htimer := opCtrl_dryFireWaitTimer_toNat P s
    rw [hb, afterDryFire_of_not hd, detectors_status, detectors_dryFireWaitTimer] at htimer
    refine ⟨fun hflow => ⟨?_, BitVec.eq_of_toNat_eq ?_⟩, fun hflow => ⟨?_, ?_⟩⟩
    · simp [hstatus, hflow]
    · simp [htimer, hflow]
    · simp [htimer, hs, hflow]
    · simp [hstatus, hflow]

/-- Settles O42: `mid`, `c4` and `w` are the statuses after the two parts of C4 and the dry-fire timer between them. -/
theorem ctrlEnteringLoadsAndSaves : Obligations.CtrlEnteringLoadsAndSaves := by
  intro P s
  refine ⟨_, ctrlAnswers_opCtrl P s, (afterDryFire P s).rc.status, (beforeLogic P s).rc.status,
    (afterDryFire P s).rc.dryFireWaitTimer, fun hd => ?_, fun hd => ?_, fun hf => ?_, fun hf ho he hw => ?_,
    fun hf h => ?_, opCtrl_previousStatus_eq P s, opCtrl_lowflowSel_eq P s, opCtrl_shutdownCounter_toNat P s,
    opCtrl_errorWaitCounter_toNat P s, opCtrl_dryFireWaitTimer_toNat P s, opCtrl_tempWaitTimer_of_ne, fun hc4 => ?_,
    opCtrl_integral_of_change⟩
  · exact ⟨afterDryFire_status_of_acts hd, afterDryFire_dryFireWaitTimer_of_acts hd⟩
  · rw [afterDryFire_of_not hd]
    exact ⟨detectors_status P s, detectors_dryFireWaitTimer P s⟩
  · rw [beforeLogic_rc_of_fault hf, enter_status]
  · rw [beforeLogic_rc_of_over hf ho he hw, enter_status]
  · rw [beforeLogic_of_no_override hf h]
  · obtain ⟨hover, hback⟩ := opCtrl_of_tempWait hc4
    exact ⟨fun ho => (hover ho).2, fun ho => (hback ho).2⟩

/-- Settles O45: relays and response of every cycle, and the duty request by whether the PID step ran. -/
theorem ctrlRelaysAndDutyFollowStatus : Obligations.CtrlRelaysAndDutyFollowStatus := by
  intro P s
  refine ⟨_, ctrlAnswers_opCtrl P s, opCtrl_relays P s, opCtrl_rsp P s, opCtrl_dutyReq_of_standbyHeat,
    fun hheat hrun hlow => opCtrl_dutyReq_of_not_heats ?_, opCtrl_dutyReq_of_no_pid⟩
  simp [Heats, hheat, hrun, hlow]

end Sys2Proof.Machine

/-! SUPPORT. The PID step of a control cycle (`44_pid.md` rules R190 to R198): what it reads of the state that the detectors
leave, what it answers by the outlet's validity, and the cycle in which it runs. -/

namespace Sys2Proof.Machine

/-! ### What the PID step reads

The error, the rate and the integral are computed from elements that steps C0 to C3 leave, and from them the duty. -/

@[simp] theorem valid_detectors (P : Params) (s : State) (ch : Channel) : valid (detectors P s) ch = valid s ch := by
  rw [valid, detectors_inp, valid]

@[simp] theorem pidError_detectors (P : Params) (s : State) : pidError (detectors P s) = pidError s := by
  rw [pidError, temp, detectors_set, detectors_inp, pidError, temp]

@[simp] theorem pidIntegral_detectors (P : Params) (s : State) : pidIntegral P (detectors P s) = pidIntegral P s := by
  rw [pidIntegral, detectors_integral, pidError_detectors, pidIntegral]

@[simp] theorem pidBase_detectors (P : Params) (s : State) : pidBase P (detectors P s) = pidBase P s := by
  rw [pidBase, detectors_set, pidError_detectors, pidIntegral_detectors, pidBase]

@[simp] theorem pidRate_detectors (P : Params) (s : State) : pidRate (detectors P s) = pidRate s := by
  rw [pidRate, rise_congr (detectors_inp P s) (detectors_history P s), pidRate]

@[simp] theorem pidDerivative_detectors (P : Params) (s : State) (u : F32) :
    pidDerivative (detectors P s) u = pidDerivative s u := by
  rw [pidDerivative, detectors_set, pidRate_detectors, pidDerivative]

@[simp] theorem pidPreburn_detectors (P : Params) (s : State) (u : F32) :
    pidPreburn P (detectors P s) u = pidPreburn P s u := by
  rw [pidPreburn, pidError_detectors, pidRate_detectors, pidPreburn]

/-- The detectors change nothing that the PID step reads, so it answers as in the state the cycle starts from. -/
theorem pidStep_detectors (P : Params) (s : State) :
    (pidStep P (detectors P s)).1.integral = (pidStep P s).1.integral ∧
      (pidStep P (detectors P s)).2 = (pidStep P s).2 := by
  unfold pidStep
  rw [valid_detectors, pidIntegral_detectors, pidBase_detectors, pidDerivative_detectors, pidPreburn_detectors]
  split
  · exact ⟨rfl, rfl⟩
  · exact ⟨detectors_integral P s, rfl⟩

/-- The rate of a detected outlet needs only its last reading to be valid (rules R152, R194). -/
theorem pidRate_of_detected {s : State} (h : s.inp.temps.outlet.detected = true) :
    pidRate s =
      fOfInt
        (if s.det.history.outlet.prevValid then s.inp.temps.outlet.temp.toInt - s.det.history.outlet.tPrev.toInt
        else 0) := by
  have hvalid : valid s .outlet = true := h
  rw [pidRate, rise, hvalid, Bool.true_and]
  rfl

/-- The pattern that the statement writes for `+0.0` (rule R93). -/
theorem f32OfBits_zero : f32OfBits 0x00000000 = some F32Num.zero := by decide

/-! ### What the PID step answers (rule R197) -/

theorem pidStep_of_not_detected (P : Params) {s : State} (h : s.inp.temps.outlet.detected = false) :
    pidStep P s = (s.rc, 0) := by
  have hvalid : ¬valid s .outlet = true := Bool.eq_false_iff.mp h
  rw [pidStep, if_neg hvalid]

theorem pidStep_of_detected (P : Params) {s : State} (h : s.inp.temps.outlet.detected = true) :
    (pidStep P s).1.integral = (pidIntegral P s).toBits ∧
      (pidStep P s).2 = pidConvert (pidPreburn P s (pidDerivative s (pidBase P s))) := by
  have hvalid : valid s .outlet = true := h
  rw [pidStep, if_pos hvalid]
  exact ⟨rfl, rfl⟩

/-! ### The cycle in which it runs (rules R163, R164) -/

/-- The state logic runs the PID step: flow, no shutdown flag, and the one of Running and LowFlow that the flow asks
for. -/
def PidRuns (s : State) : Prop :=
  s.inp.flowPresent = true ∧ s.rc.shutdownFlag = false ∧
    ((s.rc.status = .running ∧ s.inp.flowLow = false) ∨ (s.rc.status = .lowFlow ∧ s.inp.flowLow = true))

theorem stateLogic_of_pidRuns (P : Params) {s : State} (h : PidRuns s) :
    stateLogic P s = ((pidStep P s).1, some (pidStep P s).2) := by
  obtain ⟨hflow, hflag, ⟨hs, hlow⟩ | ⟨hs, hlow⟩⟩ := h
  · simp [stateLogic, hs, logicRunning, hflow, hflag, hlow]
  · simp [stateLogic, hs, logicLowFlow, hflow, hflag, hlow]

/-- Without a fault, the ceiling or a dry-fire, the logic starts where the detectors left the state, and the shutdown flag
at the end of the cycle is the one it reads. -/
theorem opCtrl_eq_pidStep {P : Params} {s : State} (hf : (opCtrl P s).fr.faults = []) (ho : ¬OutletOver P s)
    (hd : (opCtrl P s).det.dryfireConfirm.toNat < P.confirmN) (hflow : s.inp.flowPresent = true)
    (hflag : (opCtrl P s).rc.shutdownFlag = false)
    (hs : (s.rc.status = .running ∧ s.inp.flowLow = false) ∨ (s.rc.status = .lowFlow ∧ s.inp.flowLow = true)) :
    (opCtrl P s).rc.status = s.rc.status ∧
      (opCtrl P s).rc.integral = (pidStep P s).1.integral ∧ (opCtrl P s).pm.dutyReq = (pidStep P s).2 := by
  have hb := beforeLogic_of_undisturbed hf (.inl ho) (not_dryFireActs_of_unconfirmed hd)
  obtain ⟨hkeep, _⟩ := stateLogic_frame P (beforeLogic P s)
  have hruns : PidRuns (detectors P s) := by
    refine ⟨by simpa using hflow, ?_, by simpa using hs⟩
    rw [← hflag, opCtrl_shutdownFlag, hkeep, hb]
  have hlogic := stateLogic_of_pidRuns P hruns
  obtain ⟨hint, hduty⟩ := pidStep_detectors P s
  rw [← hint, ← hduty, opCtrl_status, opCtrl_integral, opCtrl_dutyReq, hb, hlogic, pidStep_rc]
  exact ⟨detectors_status P s, rfl, rfl⟩

/-- Settles O46: the statement's intermediate values are, one by one, those of the model's PID step. -/
theorem pidStepSetsTheDuty : Obligations.PidStepSetsTheDuty := by
  intro P s
  refine ⟨_, ctrlAnswers_opCtrl P s, fun hf ho hd hflow hflag hs => ?_⟩
  obtain ⟨hstatus, hint, hduty⟩ := opCtrl_eq_pidStep hf ho hd hflow hflag hs
  refine ⟨hstatus, fun hout => ?invalid, fun hout => ?valid⟩
  case invalid =>
    rw [hduty, hint, pidStep_of_not_detected P hout]
    exact ⟨rfl, rfl⟩
  case valid =>
    intro e r zero i u1 u2 u3
    obtain ⟨hi, hconvert⟩ := pidStep_of_detected P hout
    have hr : pidRate s = r := pidRate_of_detected hout
    have hzero : some F32Num.zero = zero := f32OfBits_zero.symm
    have hu1 : pidBase P s = u1 := rfl
    have hu2 : pidDerivative s u1 = u2 := by rw [pidDerivative, hr, hzero]
    have hu3 : pidPreburn P s u2 = u3 := by rw [pidPreburn, hr]; rfl
    refine ⟨hint.trans hi, ?_⟩
    rw [hduty, hconvert, pidConvert_toNat, hu1, hu2, hu3]
    rfl

end Sys2Proof.Machine

/-! SUPPORT. The system operations NOP and TICK (`45_system.md` rules R200, R204 and R205): what a presented command
and a pulse of `tick_1ms` run, that the control cycle does not read the response port, and what one tick makes of
`ctrl_cnt` and `cycle_count`. -/

namespace Sys2Proof.Machine

/-! ### A clock with one event -/

theorem step_presented (s : State) (w : Command) :
    step { s with pins := ⟨true, false, false, true, w⟩ :: s.pins } = runCommand w s := rfl

theorem step_tickPulse (s : State) :
    step { s with pins := ⟨true, false, true, false, 0⟩ :: s.pins } = unanswered (exec .tick s) := rfl

theorem runCommand_of_ok {w : Command} {i : Instr} (h : decode w = .ok i) (s : State) : runCommand w s = exec i s := by
  rw [runCommand, h]

theorem runCommand_of_error {w : Command} {e : Reject} (h : decode w = .error e) (s : State) :
    runCommand w s = .next s.refuse := by
  rw [runCommand, h]

/-! ### The words with `op = 0` (rules R80 and R200) -/

theorem opField_eq_zero {w : Command} (h : w.toNat / 2 ^ 40 = 0) : opField w = 0 := by
  apply BitVec.eq_of_toNat_eq
  rw [opField, BitVec.extractLsb'_toNat, Nat.shiftRight_eq_div_pow, h]
  rfl

theorem decode_of_opField_zero {w : Command} (h : opField w = 0) : decode w = formatZ .nop w := by
  rw [decode, h]
  rfl

/-- The three fields make up the word. -/
theorem eq_zero_of_fields {w : Command} (hop : opField w = 0) (ha : aField w = 0) (hv : vField w = 0) : w = 0 := by
  have hw := w.isLt
  have hop' := congrArg BitVec.toNat hop
  have ha' := congrArg BitVec.toNat ha
  have hv' := congrArg BitVec.toNat hv
  apply BitVec.eq_of_toNat_eq
  simp only [opField, aField, vField, BitVec.extractLsb'_toNat, Nat.shiftRight_eq_div_pow, BitVec.ofNat_eq_ofNat,
    BitVec.toNat_ofNat] at hop' ha' hv' ⊢
  omega

theorem formatZ_error_of_field {w : Command} (i : Instr) (h : ¬(aField w = 0 ∧ vField w = 0)) :
    ∃ e, formatZ i w = .error e := by
  by_cases ha : aField w = 0
  · have hv : vField w ≠ 0 := fun hv => h ⟨ha, hv⟩
    exact ⟨.nonzeroV, by rw [formatZ, if_neg (not_not_intro ha), if_pos hv]⟩
  · exact ⟨.nonzeroA, by rw [formatZ, if_pos ha]⟩

/-! ### The response port -/

theorem silent_respond (s : State) (v : Word) : (s.respond v).silent = s.silent := rfl

/-- A response overwrites what was on the port. -/
theorem respond_congr {s t : State} (h : s.silent = t.silent) (v : Word) : s.respond v = t.respond v :=
  calc
    s.respond v = s.silent.respond v := rfl
    _ = t.silent.respond v := by rw [h]
    _ = t.respond v := rfl

/-! ### The control cycle does not read the response port -/

theorem detectChambers_silent (P : Params) (s : State) :
    detectChambers P s.silent = (detectChambers P s).silent := by
  rw [detectChambers, detectChambers, apply_ite State.silent]
  rfl

theorem detectors_silent (P : Params) (s : State) : detectors P s.silent = (detectors P s).silent := by
  have hcfg : detectChambers P (bookkeeping s.silent) = (detectChambers P (bookkeeping s)).silent :=
    detectChambers_silent P (bookkeeping s)
  rw [detectors, hcfg]
  rfl

theorem dryFireTransition_silent (P : Params) (s : State) :
    dryFireTransition P s.silent = (dryFireTransition P s).silent := by
  rw [dryFireTransition, dryFireTransition, apply_ite State.silent]
  rfl

theorem faultOverride_silent (P : Params) (s : State) : faultOverride P s.silent = (faultOverride P s).silent := by
  rw [faultOverride, faultOverride, apply_ite State.silent]
  rfl

theorem ceilingOverride_silent (P : Params) (s : State) :
    ceilingOverride P s.silent = (ceilingOverride P s).silent := by
  rw [ceilingOverride, ceilingOverride, apply_ite State.silent]
  rfl

theorem overrides_silent (P : Params) (s : State) : overrides P s.silent = (overrides P s).silent := by
  rw [overrides, dryFireTransition_silent, faultOverride_silent, ceilingOverride_silent, overrides]

theorem logicAndOutputs_silent (P : Params) (s : State) :
    logicAndOutputs P s.silent = (logicAndOutputs P s).silent := rfl

theorem recordHistory_silent (s : State) : recordHistory s.silent = (recordHistory s).silent := rfl

theorem controlCycle_silent (P : Params) (s : State) : controlCycle P s.silent = (controlCycle P s).silent := by
  rw [controlCycle, detectors_silent, overrides_silent, logicAndOutputs_silent, recordHistory_silent, controlCycle]

/-! ### One tick (rule R204) -/

theorem exec_xcross (s : State) : exec .xcross s = .next (opXcross Config.params s) := rfl

theorem exec_ctrl (s : State) : exec .ctrl s = .next (opCtrl Config.params s) := rfl

theorem exec_tick (s : State) : exec .tick s = .next (opTick Config.params s) := rfl

theorem opXcross_silent (P : Params) (s : State) : (opXcross P s).silent = (crossing P s).silent :=
  silent_respond _ _

theorem opCtrl_silent (P : Params) (s : State) : (opCtrl P s).silent = (controlCycle P s).silent :=
  silent_respond _ _

/-- CTRL_PERIOD − 1 with the source's CTRL_PERIOD of 500 (rule R5). -/
theorem ctrlPeriod_reload : BitVec.ofNat 16 (Config.params.ctrlPeriod - 1) = 499 := rfl

theorem tickControl_of_zero {s : State} (h : s.ctrlCnt = 0) :
    tickControl Config.params s = { controlCycle Config.params s with ctrlCnt := 499 } := by
  rw [tickControl, if_pos h, ctrlPeriod_reload]

theorem tickControl_of_ne_zero (P : Params) {s : State} (h : s.ctrlCnt ≠ 0) :
    tickControl P s = { s with ctrlCnt := s.ctrlCnt - 1 } := if_neg h

/-- The first part of TICK is XCROSS without its response. -/
theorem tickCrossing_runs_xcross (s : State) :
    ∃ x : State,
      (if s.pm.zcPending = true then exec .xcross { s with pm := { s.pm with zcPending := false } } = .next x
        else x = s) ∧
      x.silent = (tickCrossing Config.params s).silent := by
  unfold tickCrossing
  split
  case isTrue => exact ⟨_, exec_xcross _, opXcross_silent _ _⟩
  case isFalse => exact ⟨s, rfl, rfl⟩

/-- The second part of TICK is CTRL without its response, whatever XCROSS has put on the response port. -/
theorem tickControl_runs_ctrl {x s : State} (h : x.silent = s.silent) :
    ∃ c : State,
      (if x.ctrlCnt = 0 then ∃ y, exec .ctrl x = .next y ∧ c = { y with ctrlCnt := 499 }
        else c = { x with ctrlCnt := x.ctrlCnt - 1 }) ∧
      c.silent = (tickControl Config.params s).silent := by
  have hcnt : s.ctrlCnt = x.ctrlCnt := (congrArg State.ctrlCnt h).symm
  split
  case isTrue hzero =>
    refine ⟨_, ⟨_, exec_ctrl x, rfl⟩, ?_⟩
    have hcycle : (opCtrl Config.params x).silent = (controlCycle Config.params s).silent := by
      rw [opCtrl_silent, ← controlCycle_silent, h, controlCycle_silent]
    rw [tickControl_of_zero (hcnt.trans hzero)]
    exact congrArg (fun t : State => { t with ctrlCnt := 499 }) hcycle
  case isFalse hne =>
    refine ⟨_, rfl, ?_⟩
    rw [tickControl_of_ne_zero _ (hcnt ▸ hne)]
    exact congrArg (fun t : State => { t with ctrlCnt := t.ctrlCnt - 1 }) h

/-! ### The prescaler and the count of cycles over many ticks (rule R205) -/

@[simp] theorem tickCrossing_ctrlCnt (P : Params) (s : State) : (tickCrossing P s).ctrlCnt = s.ctrlCnt := by
  unfold tickCrossing
  split <;> rfl

@[simp] theorem tickCrossing_det (P : Params) (s : State) : (tickCrossing P s).det = s.det := by
  unfold tickCrossing
  split <;> rfl

@[simp] theorem controlCycle_cycleCount (P : Params) (s : State) :
    (controlCycle P s).det.cycleCount = sat16Inc s.det.cycleCount := by
  rw [controlCycle_det, detectors_cycleCount]

/-- A tick at 0 runs one control cycle and reloads. -/
theorem opTick_of_zero {s : State} (h : s.ctrlCnt = 0) :
    (opTick Config.params s).ctrlCnt = 499 ∧
      (opTick Config.params s).det.cycleCount = sat16Inc s.det.cycleCount := by
  rw [opTick, State.respond_ctrlCnt, State.respond_det, tickControl_of_zero (by simpa using h)]
  simp

/-- A tick at any other count runs none. -/
theorem opTick_of_ne_zero (P : Params) {s : State} (h : s.ctrlCnt ≠ 0) :
    (opTick P s).ctrlCnt = s.ctrlCnt - 1 ∧ (opTick P s).det.cycleCount = s.det.cycleCount := by
  rw [opTick, State.respond_ctrlCnt, State.respond_det, tickControl_of_ne_zero _ (by simpa using h)]
  simp

/-- The prescaler after `n` ticks from `d`. -/
def prescalerAfter (d n : Nat) : Nat := if n ≤ d then d - n else 499 - (n - 1 - d) % 500

/-- The number of control cycles in `n` ticks with the prescaler at `d` before them. -/
def cyclesIn (d n : Nat) : Nat := if n ≤ d then 0 else (n - 1 - d) / 500 + 1

theorem prescalerAfter_succ (d n : Nat) :
    prescalerAfter d (n + 1) = if prescalerAfter d n = 0 then 499 else prescalerAfter d n - 1 := by
  unfold prescalerAfter
  split_ifs <;> omega

theorem cyclesIn_succ (d n : Nat) :
    cyclesIn d (n + 1) = if prescalerAfter d n = 0 then cyclesIn d n + 1 else cyclesIn d n := by
  unfold cyclesIn prescalerAfter
  split_ifs <;> omega

/-- `t` holds what `n` ticks make of the prescaler and of the saturating count of cycles in `s`. -/
structure AfterTicks (s : State) (n : Nat) (t : State) : Prop where
  prescaler : t.ctrlCnt.toNat = prescalerAfter s.ctrlCnt.toNat n
  cycles : t.det.cycleCount.toNat = min (s.det.cycleCount.toNat + cyclesIn s.ctrlCnt.toNat n) 65535

theorem AfterTicks.zero (s : State) : AfterTicks s 0 s where
  prescaler := by simp [prescalerAfter]
  cycles := by
    have hlt := s.det.cycleCount.isLt
    simp only [cyclesIn, Nat.zero_le, if_true]
    omega

theorem AfterTicks.tick {s t : State} {n : Nat} (h : AfterTicks s n t) :
    AfterTicks s (n + 1) (opTick Config.params t) := by
  obtain ⟨hpre, hcyc⟩ := h
  by_cases hzero : t.ctrlCnt = 0
  · obtain ⟨hcnt, hcount⟩ := opTick_of_zero hzero
    have hruns : prescalerAfter s.ctrlCnt.toNat n = 0 := by rw [← hpre, hzero]; rfl
    refine ⟨?_, ?_⟩
    · rw [hcnt, prescalerAfter_succ, if_pos hruns]
      rfl
    · rw [hcount, sat16Inc_toNat, hcyc, cyclesIn_succ, if_pos hruns]
      omega
  · obtain ⟨hcnt, hcount⟩ := opTick_of_ne_zero Config.params hzero
    have hwaits : ¬prescalerAfter s.ctrlCnt.toNat n = 0 := by
      rw [← hpre]
      exact fun h => hzero (BitVec.eq_of_toNat_eq h)
    refine ⟨?_, ?_⟩
    · rw [hcnt, prescalerAfter_succ, if_neg hwaits, ← hpre]
      bv_omega
    · rw [hcount, hcyc, cyclesIn_succ, if_neg hwaits]

theorem repeatOp_tick (s : State) : ∀ n : Nat, ∃ t, repeatOp .tick n s = .next t ∧ AfterTicks s n t
  | 0 => ⟨s, rfl, .zero s⟩
  | n + 1 => by
    obtain ⟨t, ht, hafter⟩ := repeatOp_tick s n
    exact ⟨_, (repeatOp_succ ht).trans (exec_tick t), hafter.tick⟩

/-! ### The statements -/

/-- Settles O20: the parts of TICK are XCROSS and CTRL up to the response port, which the end of TICK writes anew. -/
theorem tickRunsCrossingThenControl : Obligations.TickRunsCrossingThenControl := by
  intro s
  obtain ⟨x, hx, hcross⟩ := tickCrossing_runs_xcross s
  obtain ⟨c, hc, hctrl⟩ := tickControl_runs_ctrl hcross
  have htick : exec .tick s = .next { c with rsp := some ⟨false, 0⟩ } := by
    rw [exec_tick, opTick, ← respond_congr hctrl]
    rfl
  refine ⟨x, c, hx, hc, htick, ?word, ?pulse⟩
  case word => rw [step_presented, runCommand_of_ok (i := .tick) (by decide), htick]
  case pulse =>
    rw [step_tickPulse, htick]
    rfl

/-- Settles O21, by induction on the number of ticks. -/
theorem controlRunsAtDelayAndEveryPeriod : Obligations.ControlRunsAtDelayAndEveryPeriod := by
  intro s n
  obtain ⟨t, ht, hpre, hcyc⟩ := repeatOp_tick s n
  refine ⟨t, ht, ?_⟩
  unfold prescalerAfter at hpre
  unfold cyclesIn at hcyc
  split
  case isTrue hwait =>
    rw [if_pos hwait] at hpre hcyc
    have hlt := s.det.cycleCount.isLt
    exact ⟨hpre, BitVec.eq_of_toNat_eq (by omega)⟩
  case isFalse hrun =>
    rw [if_neg hrun] at hpre hcyc
    exact ⟨hpre, hcyc⟩

/-- Settles O11: with `op = 0` the word is NOP's or has a bit of another field set, which format Z refuses. -/
theorem nopOnlyAnswersZero : Obligations.NopOnlyAnswersZero := by
  refine ⟨fun s => rfl, by decide, fun s w hop hne => ?_⟩
  have hzero := opField_eq_zero hop
  obtain ⟨e, he⟩ := formatZ_error_of_field .nop fun ⟨ha, hv⟩ => hne (eq_zero_of_fields hzero ha hv)
  rw [step_presented, runCommand_of_error ((decode_of_opField_zero hzero).trans he)]
  rfl

end Sys2Proof.Machine

/-! SUPPORT. The decoder against the encoder (`30_encoding.md` rules R80 to R83): a word is its three fields, what each
format accepts, and from these that every operation has exactly one command word. -/

namespace Sys2Proof

/-! ### A word is its three fields -/

theorem opField_toNat (w : Command) : (opField w).toNat = w.toNat / 2 ^ 40 := by
  have hw := w.isLt
  rw [opField, BitVec.extractLsb'_toNat, Nat.shiftRight_eq_div_pow]
  omega

theorem aField_toNat (w : Command) : (aField w).toNat = w.toNat / 2 ^ 32 % 2 ^ 8 := by
  rw [aField, BitVec.extractLsb'_toNat, Nat.shiftRight_eq_div_pow]

theorem vField_toNat (w : Command) : (vField w).toNat = w.toNat % 2 ^ 32 := by
  rw [vField, BitVec.extractLsb'_toNat, Nat.shiftRight_eq_div_pow, Nat.pow_zero, Nat.div_one]

theorem commandWord_fields (w : Command) : commandWord (opField w) (aField w) (vField w) = w := by
  apply BitVec.eq_of_toNat_eq
  rw [commandWord_toNat, opField_toNat, aField_toNat, vField_toNat]
  omega

theorem vField_eq_zero_iff (w : Command) : vField w = 0 ↔ w.toNat % 2 ^ 32 = 0 := by
  rw [← BitVec.toNat_inj, vField_toNat]
  rfl

theorem fields_eq_zero_iff (w : Command) : aField w = 0 ∧ vField w = 0 ↔ w.toNat % 2 ^ 40 = 0 := by
  rw [← BitVec.toNat_inj, ← BitVec.toNat_inj, aField_toNat, vField_toNat]
  simp only [BitVec.ofNat_eq_ofNat, BitVec.toNat_ofNat]
  omega

/-! ### What each format accepts (rule R81) -/

theorem formatZ_eq_ok_iff (i j : Instr) (w : Command) :
    formatZ i w = .ok j ↔ (aField w = 0 ∧ vField w = 0) ∧ i = j := by
  unfold formatZ
  split
  · simp_all
  · split <;> simp_all

theorem formatA_eq_ok_iff (f : U8 → Instr) (j : Instr) (w : Command) :
    formatA f w = .ok j ↔ vField w = 0 ∧ f (aField w) = j := by
  unfold formatA
  split <;> simp_all

/-- What is not accepted is refused. -/
theorem exists_error_iff {ε α : Type} (r : Except ε α) : (∃ e, r = .error e) ↔ ∀ j, r ≠ .ok j := by
  cases r <;> simp

theorem formatZ_error_iff (i : Instr) (w : Command) : (∃ e, formatZ i w = .error e) ↔ w.toNat % 2 ^ 40 ≠ 0 := by
  rw [exists_error_iff, ne_eq, ← fields_eq_zero_iff]
  simp [formatZ_eq_ok_iff]

theorem formatA_error_iff (f : U8 → Instr) (w : Command) :
    (∃ e, formatA f w = .error e) ↔ w.toNat % 2 ^ 32 ≠ 0 := by
  rw [exists_error_iff, ne_eq, ← vField_eq_zero_iff]
  simp [formatA_eq_ok_iff]

theorem formatZ_commandWord (i : Instr) (op : U8) : formatZ i (commandWord op 0 0) = .ok i := by
  simp [formatZ_eq_ok_iff]

theorem formatA_commandWord (f : U8 → Instr) (op a : U8) : formatA f (commandWord op a 0) = .ok (f a) := by
  simp [formatA_eq_ok_iff]

/-! ### A word of each format is the command word of what it is accepted as -/

theorem commandWord_of_fields {op a : U8} {v : Word} {w : Command} (hop : (opField w).toNat = op.toNat)
    (ha : aField w = a) (hv : vField w = v) : commandWord op a v = w := by
  rw [← BitVec.eq_of_toNat_eq hop, ← ha, ← hv, commandWord_fields]

theorem encode_of_formatZ {op : U8} {i j : Instr} {w : Command} (hrow : encode i = commandWord op 0 0)
    (hop : (opField w).toNat = op.toNat) (h : formatZ i w = .ok j) : encode j = w := by
  obtain ⟨⟨ha, hv⟩, rfl⟩ := (formatZ_eq_ok_iff i j w).mp h
  rw [hrow, commandWord_of_fields hop ha hv]

theorem encode_of_formatA {op : U8} {f : U8 → Instr} {j : Instr} {w : Command}
    (hrow : ∀ a, encode (f a) = commandWord op a 0) (hop : (opField w).toNat = op.toNat) (h : formatA f w = .ok j) :
    encode j = w := by
  obtain ⟨hv, rfl⟩ := (formatA_eq_ok_iff f j w).mp h
  rw [hrow, commandWord_of_fields hop rfl hv]

theorem encode_of_formatAV {op : U8} {f : U8 → Word → Instr} {j : Instr} {w : Command}
    (hrow : ∀ a v, encode (f a v) = commandWord op a v) (hop : (opField w).toNat = op.toNat)
    (h : formatAV f w = .ok j) : encode j = w := by
  obtain rfl : f (aField w) (vField w) = j := Except.ok.inj h
  rw [hrow, commandWord_of_fields hop rfl rfl]

/-! ### The statements -/

/-- Settles O1: the opcode of each row selects its format again, which finds the operands in their fields. -/
theorem decodeInvertsEncode : Obligations.DecodeInvertsEncode := by
  intro i
  cases i <;> rw [encode, decode, opField_commandWord]
  case nop | sreset | fcount | zcedge | xcross | clrforce | ctrl | tick => exact formatZ_commandWord _ _
  case rdreg | freport | fclear | fexists | thchk | setduty | setforce => exact formatA_commandWord _ _ _
  case wrreg a v => exact congrArg Except.ok (congrArg₂ Instr.wrreg (aField_commandWord _ a v) (vField_commandWord _ a v))

/-- Settles O2: row by row of the opcode map, the word of the accepted operation has the same three fields. -/
theorem encodeInvertsDecode : Obligations.EncodeInvertsDecode := by
  intro w i h
  unfold decode at h
  split at h
  case h_1 hop => exact encode_of_formatZ (op := 0x00) rfl hop h
  case h_2 hop => exact encode_of_formatA (op := 0x01) (fun _ => rfl) hop h
  case h_3 hop => exact encode_of_formatAV (op := 0x02) (fun _ _ => rfl) hop h
  case h_4 hop => exact encode_of_formatZ (op := 0x03) rfl hop h
  case h_5 hop => exact encode_of_formatA (op := 0x10) (fun _ => rfl) hop h
  case h_6 hop => exact encode_of_formatA (op := 0x11) (fun _ => rfl) hop h
  case h_7 hop => exact encode_of_formatA (op := 0x12) (fun _ => rfl) hop h
  case h_8 hop => exact encode_of_formatZ (op := 0x13) rfl hop h
  case h_9 hop => exact encode_of_formatA (op := 0x18) (fun _ => rfl) hop h
  case h_10 hop => exact encode_of_formatZ (op := 0x20) rfl hop h
  case h_11 hop => exact encode_of_formatZ (op := 0x21) rfl hop h
  case h_12 hop => exact encode_of_formatA (op := 0x22) (fun _ => rfl) hop h
  case h_13 hop => exact encode_of_formatA (op := 0x23) (fun _ => rfl) hop h
  case h_14 hop => exact encode_of_formatZ (op := 0x24) rfl hop h
  case h_15 hop => exact encode_of_formatZ (op := 0x30) rfl hop h
  case h_16 hop => exact encode_of_formatZ (op := 0x40) rfl hop h
  case h_17 => cases h

/-- Settles O3: a row of the map refuses exactly what its format refuses, and a word without a row is refused. -/
theorem decoderRefusesExactlyIllegalWords : Obligations.DecoderRefusesExactlyIllegalWords := by
  intro w
  rw [← opField_toNat]
  unfold decode
  split
  case h_3 hop => simp [hop, formatAV]
  case h_1 hop | h_4 hop | h_8 hop | h_10 hop | h_11 hop | h_14 hop | h_15 hop | h_16 hop =>
    rw [formatZ_error_iff, hop]
    simp
  case h_2 hop | h_5 hop | h_6 hop | h_7 hop | h_9 hop | h_12 hop | h_13 hop =>
    rw [formatA_error_iff, hop]
    simp
  case h_17 => exact iff_of_true ⟨_, rfl⟩ (.inl (by simp_all))

/-- Settles O4: each word has the fields of its row. -/
theorem specWordsDecode : Obligations.SpecWordsDecode :=
  ⟨decodeInvertsEncode .nop, decodeInvertsEncode (.wrreg 0x10 100), decodeInvertsEncode (.freport 0x21),
    decodeInvertsEncode (.thchk 1), decodeInvertsEncode (.setduty 45), decodeInvertsEncode .ctrl,
    decodeInvertsEncode .tick⟩

end Sys2Proof

/-! SUPPORT. Every operation and every step as a function of the state: what each operation answers, which parts of the
state it can write, and what a step that does not reset can do (`00_scope.md` rule R8, `30_encoding.md` rules R83, R89 and
R92). -/

namespace Sys2Proof.Machine

/-! ### The answer of an operation -/

/-- The next state of `exec`; the other two outcomes do not occur (`exec_eq_answer`). -/
def answer (i : Instr) (s : State) : State :=
  match exec i s with
  | .next t => t
  | .fault _ => s
  | .refused _ => s

theorem exec_eq_answer (i : Instr) (s : State) : exec i s = .next (answer i s) := by cases i <;> rfl

@[simp] theorem answer_nop (s : State) : answer .nop s = s.respond 0 := rfl

@[simp] theorem answer_rdreg (a : U8) (s : State) : answer (.rdreg a) s = opRdreg Config.params a s := rfl

@[simp] theorem answer_wrreg (a : U8) (v : Word) (s : State) :
    answer (.wrreg a v) s = opWrreg Config.params a v s := rfl

@[simp] theorem answer_sreset (s : State) : answer .sreset s = (s.toReset Config.params).respond 0 := rfl

@[simp] theorem answer_freport (c : U8) (s : State) : answer (.freport c) s = opFreport Config.params c s := rfl

@[simp] theorem answer_fclear (c : U8) (s : State) : answer (.fclear c) s = opFclear c s := rfl

@[simp] theorem answer_fexists (c : U8) (s : State) : answer (.fexists c) s = opFexists c s := rfl

@[simp] theorem answer_fcount (s : State) :
    answer .fcount s = s.respond (BitVec.ofNat 32 s.fr.faults.length) := rfl

@[simp] theorem answer_thchk (a : U8) (s : State) : answer (.thchk a) s = opThchk Config.params a s := rfl

@[simp] theorem answer_zcedge (s : State) :
    answer .zcedge s = { s with pm := { s.pm with zcPending := true } }.respond 0 := rfl

@[simp] theorem answer_xcross (s : State) : answer .xcross s = opXcross Config.params s := rfl

@[simp] theorem answer_setduty (d : U8) (s : State) :
    answer (.setduty d) s =
      { s with pm := { s.pm with dutyReq := capDuty d } }.respond ((capDuty d).setWidth 32) := rfl

@[simp] theorem answer_setforce (d : U8) (s : State) :
    answer (.setforce d) s =
      { s with pm := { s.pm with fcPending := true, fcEn := true, fcVal := capDuty d } }.respond
        ((capDuty d).setWidth 32) := rfl

@[simp] theorem answer_clrforce (s : State) :
    answer .clrforce s = { s with pm := { s.pm with fcPending := true, fcEn := false, fcVal := 0 } }.respond 0 := rfl

@[simp] theorem answer_ctrl (s : State) : answer .ctrl s = opCtrl Config.params s := rfl

@[simp] theorem answer_tick (s : State) : answer .tick s = opTick Config.params s := rfl

/-! ### The operations that can be refused: each is the refusal, or its one effect with a response -/

theorem opRdreg_cases (P : Params) (a : U8) (s : State) :
    (Reg.ofAddr P a = none ∧ opRdreg P a s = s.refuse) ∨
      ∃ r, Reg.ofAddr P a = some r ∧ opRdreg P a s = s.respond (regRead s r) := by
  unfold opRdreg
  split
  · exact .inl ⟨‹_›, rfl⟩
  · exact .inr ⟨_, ‹_›, rfl⟩

/-- `wrregLegal` at an address with a register: the low byte is asked for MODE only. -/
theorem wrregLegal_of_some {P : Params} {a : U8} {r : Reg} (h : Reg.ofAddr P a = some r) (v : Word) :
    wrregLegal P a v = true ↔ r.writable = true ∧ (r = .mode → (v.extractLsb' 0 8).toNat < P.nModes) := by
  unfold wrregLegal
  rw [h]
  cases r <;> simp [Reg.writable]

theorem opWrreg_cases (P : Params) (a : U8) (v : Word) (s : State) :
    (wrregLegal P a v = false ∧ opWrreg P a v s = s.refuse) ∨
      ∃ r, Reg.ofAddr P a = some r ∧ r.writable = true ∧ (r = .mode → (v.extractLsb' 0 8).toNat < P.nModes) ∧
        wrregLegal P a v = true ∧ opWrreg P a v s = (regWrite s r v).respond 0 := by
  cases hr : Reg.ofAddr P a with
  | none => exact .inl ⟨by simp [wrregLegal, hr], by simp [opWrreg, hr]⟩
  | some r =>
    have hlegal := wrregLegal_of_some hr v
    by_cases hl : wrregLegal P a v = true
    · obtain ⟨hw, hm⟩ := hlegal.mp hl
      have hmode : ¬(r = .mode ∧ P.nModes ≤ (v.extractLsb' 0 8).toNat) := fun ⟨hr, hge⟩ => Nat.not_le.mpr (hm hr) hge
      exact .inr ⟨r, rfl, hw, hm, hl, by simp only [opWrreg, hr, hw, Bool.not_true, if_neg hmode]; rfl⟩
    · refine .inl ⟨Bool.eq_false_iff.mpr hl, ?_⟩
      simp only [opWrreg, hr]
      cases hw : r.writable
      · rfl
      · have hmode : r = .mode ∧ P.nModes ≤ (v.extractLsb' 0 8).toNat := by simpa [hlegal, hw] using hl
        exact if_pos hmode

theorem opThchk_cases (P : Params) (a : U8) (s : State) :
    (5 < a.toNat ∧ opThchk P a s = s.refuse) ∨
      ∃ ch, a.toNat ≤ 5 ∧
        opThchk P a s = (thermistorCheck P ch s).respond (thermistorAnswer ((thermistorCheck P ch s).th.get ch)) := by
  have hsome := Channel.isSome_ofNat? a.toNat
  cases hch : Channel.ofNat? a.toNat with
  | none => exact .inl ⟨by simpa [hch] using hsome, by simp [opThchk, hch]⟩
  | some ch => exact .inr ⟨ch, by simpa [hch] using hsome, by simp [opThchk, hch]⟩

/-! ### The queries leave everything but the response -/

theorem opRdreg_silent (P : Params) (a : U8) (s : State) : (opRdreg P a s).silent = s.silent := by
  rcases opRdreg_cases P a s with ⟨_, e⟩ | ⟨_, _, e⟩ <;> rw [e] <;> rfl

theorem opFexists_silent (c : U8) (s : State) : (opFexists c s).silent = s.silent := by
  unfold opFexists
  split <;> rfl

/-! ### Refused or accepted (rules R83, R89) -/

/-- An operand out of its range: the refusal. -/
theorem answer_of_not_wellFormed {i : Instr} (h : i.wellFormed Config.params = false) (s : State) :
    answer i s = s.refuse := by
  cases i with
  | nop | sreset | fcount | zcedge | xcross | setduty | setforce | clrforce | ctrl | tick => cases h
  | rdreg a =>
    rcases opRdreg_cases Config.params a s with ⟨_, e⟩ | ⟨r, hr, _⟩
    · exact e
    · simp [Instr.wellFormed, hr] at h
  | wrreg a v =>
    rcases opWrreg_cases Config.params a v s with ⟨_, e⟩ | ⟨r, _, _, _, hl, _⟩
    · exact e
    · simp [Instr.wellFormed, hl] at h
  | freport c | fclear c | fexists c =>
    have hc : c = 0 := by simpa [Instr.wellFormed] using h
    subst hc
    rfl
  | thchk a =>
    rcases opThchk_cases Config.params a s with ⟨_, e⟩ | ⟨ch, hle, _⟩
    · exact e
    · simp [Instr.wellFormed, hle] at h

/-- Every operand in its range: an accepted response. -/
theorem answer_rsp_of_wellFormed {i : Instr} (h : i.wellFormed Config.params = true) (s : State) :
    ∃ v, (answer i s).rsp = some ⟨false, v⟩ := by
  cases i with
  | nop | sreset | fcount | zcedge | xcross | setduty | setforce | clrforce | ctrl | tick => exact ⟨_, rfl⟩
  | rdreg a =>
    rcases opRdreg_cases Config.params a s with ⟨hr, _⟩ | ⟨r, _, e⟩
    · simp [Instr.wellFormed, hr] at h
    · exact ⟨_, congrArg State.rsp e⟩
  | wrreg a v =>
    rcases opWrreg_cases Config.params a v s with ⟨hl, _⟩ | ⟨r, _, _, _, _, e⟩
    · simp [Instr.wellFormed, hl] at h
    · exact ⟨_, congrArg State.rsp e⟩
  | freport c => exact ⟨_, congrArg State.rsp (opFreport_of_ne _ (of_decide_eq_true h) s)⟩
  | fclear c => exact ⟨_, congrArg State.rsp (opFclear_of_ne (of_decide_eq_true h) s)⟩
  | fexists c => exact ⟨_, congrArg State.rsp (opFexists_of_ne (of_decide_eq_true h) s)⟩
  | thchk a =>
    rcases opThchk_cases Config.params a s with ⟨hgt, _⟩ | ⟨ch, _, e⟩
    · simp [Instr.wellFormed, Nat.not_le.mpr hgt] at h
    · exact ⟨_, congrArg State.rsp e⟩

/-! ### Steps -/

/-- A step that does not reset leaves every state element, or runs one operation other than SRESET; the response port
aside. -/
theorem step_cases {s t : State} (h : step s = .next t) (hr : ¬TakesReset s) :
    t.silent = s.takeEvent.silent ∨ ∃ i ≠ Instr.sreset, t.silent = (answer i s.takeEvent).silent := by
  unfold step at h
  cases he : nextEvent s.pins <;> rw [he] at h
  case reset => exact absurd (.inl he) hr
  case idle => cases h; exact .inl rfl
  case crossing => cases h; exact .inr ⟨.zcedge, nofun, rfl⟩
  case tick => cases h; exact .inr ⟨.tick, nofun, rfl⟩
  case command w =>
    cases hd : decode w with
    | error e =>
      rw [runEvent, runCommand_of_error hd] at h
      cases h
      exact .inl rfl
    | ok i =>
      rw [runEvent, runCommand_of_ok hd, exec_eq_answer] at h
      cases h
      refine .inr ⟨i, ?_, rfl⟩
      rintro rfl
      exact hr (.inr (he.trans (congrArg Event.command (encodeInvertsDecode w _ hd).symm)))

/-- A step that resets puts every state element at its reset value; the response port aside. -/
theorem step_of_takesReset {s t : State} (h : step s = .next t) (hr : TakesReset s) :
    t.silent = (s.takeEvent.toReset Config.params).silent := by
  unfold step at h
  rcases hr with he | he <;> rw [he] at h
  · cases h
    rfl
  · rw [runEvent, runCommand_of_ok (decodeInvertsEncode .sreset)] at h
    cases h
    rfl

/-- The next clock of `s` is `p`: the step runs its first event on the state that keeps what is left of the clock. -/
theorem step_of_pins {s : State} {p : PinSample} {ps : List PinSample} (h : s.pins = p :: ps) :
    step s = runEvent p.event { s with pins := if p.taken.event = .idle then ps else p.taken :: ps } := by
  rw [step, State.takeEvent, h]
  rfl

theorem step_of_command {s : State} {w : Command} {ps : List PinSample}
    (h : s.pins = ⟨true, false, false, true, w⟩ :: ps) : step s = runCommand w { s with pins := ps } :=
  step_of_pins h

theorem exists_unanswered_exec (i : Instr) (s : State) :
    ∃ t, exec i s = .next t ∧ unanswered (exec i s) = .next { t with rsp := none } := by
  rw [exec_eq_answer]
  exact ⟨_, rfl, rfl⟩

/-! ### The statements -/

/-- Settles O59: an event runs at most one operation, and every operation answers a next state. -/
theorem everyStepCompletes : Obligations.EveryStepCompletes := by
  intro s
  unfold step
  cases nextEvent s.pins
  case reset | crossing | tick | idle => exact ⟨_, rfl⟩
  case command w =>
    cases hd : decode w with
    | error e => exact ⟨_, runCommand_of_error hd _⟩
    | ok i => exact ⟨_, (runCommand_of_ok hd _).trans (exec_eq_answer i _)⟩

/-- Settles O9: by the cases of the operations that can be refused. -/
theorem refusedExactlyWhenIllFormed : Obligations.RefusedExactlyWhenIllFormed := fun i s =>
  ⟨answer i s, exec_eq_answer i s, fun h => answer_of_not_wellFormed h s, fun h => answer_rsp_of_wellFormed h s⟩

/-- Settles O5: such a clock has the command as its only event. -/
theorem stepRunsTheDecodedCommand : Obligations.StepRunsTheDecodedCommand := fun _ _ _ _ hpins hd =>
  (step_of_command hpins).trans (runCommand_of_ok hd _)

/-- Settles O8: such a clock has the command as its only event, and the command is refused. -/
theorem illegalWordIsRefused : Obligations.IllegalWordIsRefused := fun _ _ _ _ hpins hd =>
  (step_of_command hpins).trans (runCommand_of_error hd _)

/-- Settles O7: the reset event of the pin and the arm of SRESET. -/
theorem resetByPinAndByCommand : Obligations.ResetByPinAndByCommand := by
  refine ⟨fun s p ps hpins hrst => ?_, fun _ => rfl⟩
  obtain ⟨rstN, zcEvt, tick1ms, cmdValid, cmd⟩ := p
  obtain rfl : rstN = false := hrst
  exact step_of_pins hpins

/-- Settles O6: each event of a clock is its first one once the earlier ones are taken. -/
theorem pinEventsRunInOrder : Obligations.PinEventsRunInOrder := by
  refine ⟨fun s hpins => ?_, fun s p ps hpins hrst => ?_⟩
  · simp [step, State.takeEvent, hpins, nextEvent, pinsAfter, runEvent, State.silent]
  · obtain ⟨rstN, zcEvt, tick1ms, cmdValid, cmd⟩ := p
    obtain rfl : rstN = true := hrst
    rw [step_of_pins hpins]
    refine ⟨?crossing, ?tick, ?command, ?idle⟩
    case crossing =>
      rintro rfl
      cases tick1ms <;> cases cmdValid <;> exact exists_unanswered_exec .zcedge _
    case tick =>
      rintro rfl rfl
      cases cmdValid <;> exact exists_unanswered_exec .tick _
    case command =>
      rintro rfl rfl rfl i hd
      exact runCommand_of_ok hd _
    case idle =>
      rintro rfl rfl rfl
      rfl

end Sys2Proof.Machine

/-! SUPPORT. The map of the register space (`20_memory.md` rules R64, R66 and R67, `10_state.md` rules R31, R32 and R38 to
R50): the one address of each register, the mapped and the writable addresses, that a write changes what no other
register reads, and the registers of the modulator, the registry and the channels. -/

namespace Sys2Proof.Machine

/-! ### The mapped and the writable addresses -/

/-- The address of a register (rules R30 to R50). -/
def Reg.addr : Reg → Nat
  | .status => 0x00
  | .pmstate => 0x01
  | .force => 0x02
  | .shutdownCnt => 0x03
  | .errwaitCnt => 0x04
  | .dryfireTmr => 0x05
  | .tempwaitTmr => 0x06
  | .integral => 0x07
  | .cycles => 0x08
  | .confirm => 0x09
  | .scale b => 0x0A + b.toNat
  | .fcount => 0x0C
  | .thflags => 0x0D
  | .target => 0x10
  | .mode => 0x11
  | .units => 0x12
  | .standbyEn => 0x13
  | .kp => 0x14
  | .ki => 0x15
  | .kdRise => 0x16
  | .kdFall => 0x17
  | .inFlow => 0x20
  | .inTemp ch => 0x28 + ch.toNat
  | .inCount ch => 0x30 + ch.toNat
  | .fslot i => 0x40 + i
  | .tprev ch => 0x50 + ch.toNat
  | .thdeb ch => 0x58 + ch.toNat

/-- What the fixed part of the map has at an address below 0x28: a register of that address or none, which are mapped, and
which of them are RW. -/
theorem Reg.ofLow_table : ∀ n < 0x28,
    (∀ r ∈ Reg.ofLow n, r.addr = n) ∧
      (Reg.ofLow n).isSome = decide (n ≤ 0x0D ∨ (0x10 ≤ n ∧ n ≤ 0x17) ∨ n = 0x20) ∧
      (Reg.ofLow n).any Reg.writable = decide ((0x10 ≤ n ∧ n ≤ 0x17) ∨ n = 0x20) := by decide

/-- A register is found at its own address only. -/
theorem Reg.addr_of_ofAddr {P : Params} {a : U8} {r : Reg} (h : Reg.ofAddr P a = some r) : r.addr = a.toNat := by
  have channel (base : Nat) (f : Channel → Reg) (hf : ∀ ch, (f ch).addr = base + ch.toNat) (hle : base ≤ a.toNat)
      (h : (Channel.ofNat? (a.toNat - base)).map f = some r) : r.addr = a.toNat := by
    obtain ⟨ch, hch, rfl⟩ := Option.map_eq_some_iff.mp h
    have := Channel.ofNat?_eq_some hch
    rw [hf]
    omega
  unfold Reg.ofAddr at h
  dsimp only at h
  split at h
  case isTrue hlow => exact (Reg.ofLow_table _ hlow).1 r h
  split at h
  · exact channel 0x28 _ (fun _ => rfl) (by omega) h
  split at h
  · exact channel 0x30 _ (fun _ => rfl) (by omega) h
  split at h
  · split at h
    · cases h
      simp only [Reg.addr]
      omega
    · cases h
  split at h
  · exact channel 0x50 _ (fun _ => rfl) (by omega) h
  · exact channel 0x58 _ (fun _ => rfl) (by omega) h

theorem Reg.ofAddr_injective {P : Params} {a b : U8} {r : Reg} (ha : Reg.ofAddr P a = some r)
    (hb : Reg.ofAddr P b = some r) : a = b :=
  BitVec.eq_of_toNat_eq ((Reg.addr_of_ofAddr ha).symm.trans (Reg.addr_of_ofAddr hb))

theorem Reg.ofAddr_eq_mode_iff (P : Params) (a : U8) : Reg.ofAddr P a = some .mode ↔ a.toNat = 0x11 := by
  refine ⟨fun h => (Reg.addr_of_ofAddr h).symm, fun h => ?_⟩
  obtain rfl : a = 0x11 := BitVec.eq_of_toNat_eq h
  rfl

/-- Rule R66: the mapped addresses. -/
theorem Reg.isSome_ofAddr (P : Params) (a : U8) :
    (Reg.ofAddr P a).isSome = true ↔
      a.toNat ≤ 0x0D ∨ (0x10 ≤ a.toNat ∧ a.toNat ≤ 0x17) ∨ a.toNat = 0x20 ∨ (0x28 ≤ a.toNat ∧ a.toNat ≤ 0x2D) ∨
        (0x30 ≤ a.toNat ∧ a.toNat ≤ 0x35) ∨ (0x40 ≤ a.toNat ∧ a.toNat < 0x40 + P.faultCap) ∨
        (0x50 ≤ a.toNat ∧ a.toNat ≤ 0x55) ∨ (0x58 ≤ a.toNat ∧ a.toNat ≤ 0x5D) := by
  have hcap := faultCap_le P
  unfold Reg.ofAddr
  dsimp only
  split
  case isTrue hlow =>
    obtain ⟨_, hmapped, _⟩ := Reg.ofLow_table _ hlow
    rw [hmapped, decide_eq_true_eq]
    omega
  split
  · rw [Option.isSome_map, Channel.isSome_ofNat?, decide_eq_true_eq]; omega
  split
  · rw [Option.isSome_map, Channel.isSome_ofNat?, decide_eq_true_eq]; omega
  split
  · split
    · exact iff_of_true rfl (by omega)
    · exact iff_of_false nofun (by omega)
  split
  · rw [Option.isSome_map, Channel.isSome_ofNat?, decide_eq_true_eq]; omega
  · rw [Option.isSome_map, Channel.isSome_ofNat?, decide_eq_true_eq]; omega

/-- The registers of a window of channels are all RW or all RO. -/
theorem Reg.any_writable_window (b : Bool) (f : Channel → Reg) (h : ∀ ch, (f ch).writable = b) (n : Nat) :
    ((Channel.ofNat? n).map f).any Reg.writable = (decide (n ≤ 5) && b) := by
  rw [← Channel.isSome_ofNat?]
  cases Channel.ofNat? n <;> simp [h]

/-- Rule R66: the RW addresses. -/
theorem Reg.writable_ofAddr (P : Params) (a : U8) :
    (Reg.ofAddr P a).any Reg.writable = true ↔
      (0x10 ≤ a.toNat ∧ a.toNat ≤ 0x17) ∨ a.toNat = 0x20 ∨ (0x28 ≤ a.toNat ∧ a.toNat ≤ 0x2D) ∨
        (0x30 ≤ a.toNat ∧ a.toNat ≤ 0x35) := by
  unfold Reg.ofAddr
  dsimp only
  split
  case isTrue hlow =>
    obtain ⟨_, _, hwritable⟩ := Reg.ofLow_table _ hlow
    rw [hwritable, decide_eq_true_eq]
    omega
  split
  · rw [Reg.any_writable_window true .inTemp fun _ => rfl, Bool.and_true, decide_eq_true_eq]; omega
  split
  · rw [Reg.any_writable_window true .inCount fun _ => rfl, Bool.and_true, decide_eq_true_eq]; omega
  split
  · split
    · exact iff_of_false nofun (by omega)
    · exact iff_of_false nofun (by omega)
  split
  · rw [Reg.any_writable_window false .tprev fun _ => rfl, Bool.and_false]; exact iff_of_false nofun (by omega)
  · rw [Reg.any_writable_window false .thdeb fun _ => rfl, Bool.and_false]; exact iff_of_false nofun (by omega)

/-- Rules R67 and R202: the legal operands of WRREG. -/
theorem wrregLegal_iff (P : Params) (a : U8) (v : Word) :
    wrregLegal P a v = true ↔
      (Reg.ofAddr P a).any Reg.writable = true ∧ (a.toNat = 0x11 → v.toNat % 256 < P.nModes) := by
  have hlow : (v.extractLsb' 0 8).toNat = v.toNat % 256 := by simp
  rw [← Reg.ofAddr_eq_mode_iff P, ← hlow]
  cases hr : Reg.ofAddr P a with
  | none => simp [wrregLegal, hr]
  | some r => simpa using wrregLegal_of_some hr v

/-- Settles O10: the mapped and the writable addresses, with the low byte that MODE asks for. -/
theorem operandRanges : Obligations.OperandRanges := by
  refine ⟨fun c => ?codes, fun a => Reg.isSome_ofAddr _ a, fun a v => ?write⟩
  case codes =>
    have hne : decide (c ≠ 0) = decide (c.toNat ≠ 0) := by
      rw [decide_eq_decide, ne_eq, ne_eq, ← BitVec.toNat_inj]
      rfl
    exact ⟨hne, hne, hne, rfl⟩
  case write =>
    rw [Instr.wellFormed, wrregLegal_iff, Reg.writable_ofAddr]
    omega

/-! ### A write changes what no other register reads (rule R64) -/

theorem regRead_regWrite_of_ne (s : State) {r w : Reg} (v : Word) (h : r ≠ w) :
    regRead (regWrite s w v) r = regRead s r := by
  cases w with
  | inTemp ch =>
    cases r with
    | inTemp c =>
      have hc : c ≠ ch := fun e => h (congrArg Reg.inTemp e)
      simp only [regRead, regWrite, PerChannel.get_set_of_ne _ _ hc]
    | _ => rfl
  | inCount ch =>
    cases r with
    | inCount c =>
      have hc : c ≠ ch := fun e => h (congrArg Reg.inCount e)
      simp only [regRead, regWrite, PerChannel.get_set_of_ne _ _ hc]
    | _ => rfl
  | target => cases r with | target => exact absurd rfl h | _ => rfl
  | mode => cases r with | mode => exact absurd rfl h | _ => rfl
  | units => cases r with | units => exact absurd rfl h | _ => rfl
  | standbyEn => cases r with | standbyEn => exact absurd rfl h | _ => rfl
  | kp => cases r with | kp => exact absurd rfl h | _ => rfl
  | ki => cases r with | ki => exact absurd rfl h | _ => rfl
  | kdRise => cases r with | kdRise => exact absurd rfl h | _ => rfl
  | kdFall => cases r with | kdFall => exact absurd rfl h | _ => rfl
  | inFlow => cases r with | inFlow => exact absurd rfl h | _ => rfl
  | _ => rfl

theorem regRead_silent (s : State) (r : Reg) : regRead s.silent r = regRead s r := by cases r <;> rfl

/-- A read answers the same in two states whose register at the address reads the same. -/
theorem opRdreg_rsp_congr (P : Params) (a : U8) {s t : State}
    (h : ∀ r, Reg.ofAddr P a = some r → regRead s r = regRead t r) : (opRdreg P a s).rsp = (opRdreg P a t).rsp := by
  unfold opRdreg
  split
  · rfl
  · rw [State.respond_rsp, State.respond_rsp, h _ ‹_›]

/-- A WRREG leaves every other register as it was, whether it is refused or not. -/
theorem regRead_opWrreg_of_ne (P : Params) {a b : U8} (h : b ≠ a) (v : Word) (s : State) {r : Reg}
    (hr : Reg.ofAddr P b = some r) : regRead (opWrreg P a v s) r = regRead s r := by
  rw [← regRead_silent]
  rcases opWrreg_cases P a v s with ⟨_, e⟩ | ⟨w, hw, _, _, _, e⟩ <;> rw [e]
  · exact regRead_silent s r
  · have hne : r ≠ w := fun e => h (Reg.ofAddr_injective hr (e ▸ hw))
    rw [silent_respond, regRead_silent, regRead_regWrite_of_ne s v hne]

/-- The rest of the state, which no RW register names, is not written. -/
theorem opWrreg_frame (P : Params) (a : U8) (v : Word) (s : State) :
    (opWrreg P a v s).pm = s.pm ∧ (opWrreg P a v s).rc = s.rc ∧ (opWrreg P a v s).det = s.det ∧
      (opWrreg P a v s).th = s.th ∧ (opWrreg P a v s).fr = s.fr ∧ (opWrreg P a v s).ctrlCnt = s.ctrlCnt ∧
      (opWrreg P a v s).pins = s.pins := by
  rcases opWrreg_cases P a v s with ⟨_, e⟩ | ⟨w, _, _, _, _, e⟩ <;> rw [e] <;> simp

/-- Settles O18: the frame of WRREG, and every other register reads what it did. -/
theorem wrregChangesOnlyItsRegister : Obligations.WrregChangesOnlyItsRegister := by
  intro a v s
  obtain ⟨hpm, hrc, hdet, hth, hfr, hcnt, hpins⟩ := opWrreg_frame Config.params a v s
  refine ⟨_, exec_eq_answer _ s, hpm, hrc, hdet, hth, hfr, hcnt, hpins, fun b hb => ?_⟩
  exact ⟨_, _, exec_eq_answer _ s, exec_eq_answer _ _,
    opRdreg_rsp_congr _ b fun r hr => (regRead_opWrreg_of_ne _ hb v s hr).symm⟩

/-! ### The registers of the modulator (rules R31, R32) -/

theorem pmstateWord_fields (m : ModulatorState) :
    (pmstateWord m).extractLsb' 0 8 = m.dutyReq ∧ (pmstateWord m).extractLsb' 8 8 = m.remainder ∧
      (pmstateWord m).extractLsb' 16 4 = m.powerMode.setWidth 4 ∧
      (pmstateWord m).extractLsb' 20 4 = m.crossingIndex.setWidth 4 ∧
      (pmstateWord m).getLsbD 24 = m.offsetPhase ∧ (pmstateWord m).extractLsb' 25 7 = 0 := by
  simp [pmstateWord, BitVec.getLsbD_append, BitVec.extractLsb'_append_eq_of_le,
    BitVec.extractLsb'_append_eq_of_add_le, -Nat.reduceAdd, -BitVec.getLsbD_eq_getElem]

theorem forceWord_fields (m : ModulatorState) :
    (forceWord m).extractLsb' 0 8 = m.forced.getD 0 ∧ (forceWord m).getLsbD 8 = m.forced.isSome ∧
      (forceWord m).extractLsb' 9 7 = 0 ∧ (forceWord m).extractLsb' 16 8 = m.fcVal ∧
      (forceWord m).getLsbD 24 = m.fcEn ∧ (forceWord m).getLsbD 25 = m.fcPending ∧
      (forceWord m).extractLsb' 26 6 = 0 := by
  simp [forceWord, BitVec.getLsbD_append, BitVec.extractLsb'_append_eq_of_le,
    BitVec.extractLsb'_append_eq_of_add_le, -Nat.reduceAdd, -BitVec.getLsbD_eq_getElem]

/-- Settles O13: both addresses are below 0x10, and the words have these fields. -/
theorem rdregModulatorFields : Obligations.RdregModulatorFields := by
  intro s
  have below : ∀ a ∈ [(0x01 : U8), 0x02], a.toNat < 0x10 := by decide
  exact ⟨fun a ha v => exec_wrreg_of_not_writable (Reg.not_writable_of_lt _ (below a ha)) v s,
    ⟨_, exec_rdreg_of_mapped (r := .pmstate) rfl s, pmstateWord_fields s.pm⟩,
    ⟨_, exec_rdreg_of_mapped (r := .force) rfl s, forceWord_fields s.pm⟩⟩

/-! ### The registers of the registry and of the channels (rules R38, R39, R48 to R50) -/

theorem Reg.ofAddr_fslot (P : Params) {i : Nat} (h : i < 16) :
    Reg.ofAddr P (BitVec.ofNat 8 (0x40 + i)) = if i < P.faultCap then some (.fslot i) else none := by
  have ha : (BitVec.ofNat 8 (0x40 + i)).toNat = 0x40 + i := by
    rw [BitVec.toNat_ofNat]
    omega
  unfold Reg.ofAddr
  dsimp only
  rw [ha, if_neg (by omega), if_neg (by omega), if_neg (by omega), if_pos (by omega), Nat.add_sub_cancel_left]

theorem Reg.ofAddr_tprev (P : Params) (ch : Channel) :
    Reg.ofAddr P (BitVec.ofNat 8 (0x50 + ch.toNat)) = some (.tprev ch) := by cases ch <;> rfl

theorem Reg.ofAddr_thdeb (P : Params) (ch : Channel) :
    Reg.ofAddr P (BitVec.ofNat 8 (0x58 + ch.toNat)) = some (.thdeb ch) := by cases ch <;> rfl

theorem regRead_fcount_toNat (s : State) : (regRead s .fcount).toNat = s.fr.faults.length % 256 := by
  simp only [regRead, BitVec.toNat_setWidth, BitVec.toNat_ofNat]
  omega

theorem channelBits_getLsbD (f : Channel → Bool) (ch : Channel) : (channelBits f).getLsbD ch.toNat = f ch := by
  cases ch <;>
    simp [channelBits, Channel.toNat, BitVec.getLsbD_append, -Nat.reduceAdd, -BitVec.getLsbD_eq_getElem]

theorem thflagsWord_fields (th : PerChannel ThermistorState) :
    (∀ ch : Channel, (thflagsWord th).getLsbD ch.toNat = (th.get ch).openBit.fault ∧
        (thflagsWord th).getLsbD (8 + ch.toNat) = (th.get ch).shortBit.fault) ∧
      (thflagsWord th).extractLsb' 6 2 = 0 ∧ (thflagsWord th).extractLsb' 14 18 = 0 := by
  refine ⟨fun ch => ?_, ?_⟩
  · have hlt := ch.toNat_lt
    have hopen := channelBits_getLsbD (fun ch => (th.get ch).openBit.fault) ch
    have hshort := channelBits_getLsbD (fun ch => (th.get ch).shortBit.fault) ch
    have hfar : ¬8 + ch.toNat < 6 := by omega
    have hskip : 8 + ch.toNat - 6 = 2 + ch.toNat := by omega
    have hgap : ¬2 + ch.toNat < 2 := by omega
    simp [thflagsWord, BitVec.getLsbD_append, hlt, hfar, hskip, hgap, hopen, hshort, -Nat.reduceAdd,
      -BitVec.getLsbD_eq_getElem]
  · simp [thflagsWord, BitVec.extractLsb'_append_eq_of_le, BitVec.extractLsb'_append_eq_of_add_le, -Nat.reduceAdd]

theorem regRead_thdeb_fields (s : State) (ch : Channel) :
    (regRead s (.thdeb ch)).extractLsb' 0 8 = (s.th.get ch).openBit.deb ∧
      (regRead s (.thdeb ch)).extractLsb' 8 8 = (s.th.get ch).shortBit.deb ∧
      (regRead s (.thdeb ch)).extractLsb' 16 16 = 0 := by
  simp [regRead, BitVec.extractLsb'_append_eq_of_le, BitVec.extractLsb'_append_eq_of_add_le, -Nat.reduceAdd]

theorem exec_rdreg_of_unmapped {a : U8} (h : Reg.ofAddr Config.params a = none) (s : State) :
    exec (.rdreg a) s = .next { s with rsp := some ⟨true, 0⟩ } := by
  simp [exec, execRdreg, opRdreg, h, State.refuse]

/-- Settles O15: none of these addresses is RW, and each register has its fields. -/
theorem rdregRegistryAndChannelFields : Obligations.RdregRegistryAndChannelFields := by
  intro s
  refine ⟨fun a ha v => ?readOnly, ⟨_, exec_rdreg_of_mapped (r := .fcount) rfl s, regRead_fcount_toNat s⟩,
    ⟨_, exec_rdreg_of_mapped (r := .thflags) rfl s, thflagsWord_fields s.th⟩, fun i hi => ?slot,
    fun ch => ⟨⟨_, exec_rdreg_of_mapped (Reg.ofAddr_tprev _ ch) s, flaggedWord_fields _ _⟩,
      ⟨_, exec_rdreg_of_mapped (Reg.ofAddr_thdeb _ ch) s, regRead_thdeb_fields s ch⟩⟩⟩
  case readOnly =>
    refine exec_wrreg_of_not_writable (Bool.eq_false_iff.mpr fun h => ?_) v s
    rw [Reg.writable_ofAddr] at h
    omega
  case slot =>
    have hslot := Reg.ofAddr_fslot Config.params hi
    split
    case isTrue hlt => exact exec_rdreg_of_mapped (hslot.trans (if_pos hlt)) s
    case isFalse hge => exact exec_rdreg_of_unmapped (hslot.trans (if_neg hge)) s

end Sys2Proof.Machine

/-! SUPPORT. Binary32 (`44_pid.md` rule R190, `30_encoding.md` rule R93): the values of the finite patterns grow with the
pattern, rounding takes the nearer of the two patterns around an exact value, and from these the arithmetic, the overflow
threshold and the round trip between patterns and values. -/

namespace Sys2Proof.Machine

/-! ### The values of the finite patterns -/

/-- A pattern is a significand `d` of at most 24 bits and a number `k` of binades above the lowest. -/
theorem exists_significand (p : Nat) : ∃ d k, p = d + k * 2 ^ 23 ∧ d < 2 ^ 24 ∧ (k ≠ 0 → 2 ^ 23 ≤ d) := by
  by_cases h : p < 2 ^ 23
  · exact ⟨p, 0, by omega, by omega, fun h => absurd rfl h⟩
  · exact ⟨2 ^ 23 + p % 2 ^ 23, p / 2 ^ 23 - 1, by omega, by omega, fun _ => by omega⟩

/-- The value of such a pattern; the significand `2 ^ 24` carries into the next binade. -/
theorem patternMag_significand {d k : Nat} (hd : d ≤ 2 ^ 24) (hk : k ≠ 0 → 2 ^ 23 ≤ d) :
    patternMag (d + k * 2 ^ 23) = d * 2 ^ k := by
  unfold patternMag
  rcases Nat.lt_or_ge d (2 ^ 23) with hlow | hhigh
  · obtain rfl : k = 0 := by by_contra h; exact absurd (hk h) (Nat.not_le.mpr hlow)
    rw [if_pos (by omega)]
    simp
  · rw [if_neg (by omega)]
    rcases Nat.lt_or_eq_of_le hd with hlt | rfl
    · rw [show (d + k * 2 ^ 23) / 2 ^ 23 - 1 = k by omega, show 2 ^ 23 + (d + k * 2 ^ 23) % 2 ^ 23 = d by omega]
    · rw [show (2 ^ 24 + k * 2 ^ 23) / 2 ^ 23 - 1 = k + 1 by omega,
        show 2 ^ 23 + (2 ^ 24 + k * 2 ^ 23) % 2 ^ 23 = 2 ^ 23 by omega, Nat.pow_succ]
      omega

theorem patternMag_strictMono : StrictMono patternMag := by
  refine strictMono_nat_of_lt_succ fun p => ?_
  obtain ⟨d, k, rfl, hd, hk⟩ := exists_significand p
  rw [show d + k * 2 ^ 23 + 1 = (d + 1) + k * 2 ^ 23 by omega, patternMag_significand (by omega) hk,
    patternMag_significand (by omega) fun h => Nat.le_succ_of_le (hk h)]
  exact Nat.mul_lt_mul_of_pos_right (Nat.lt_succ_self d) (Nat.two_pow_pos k)

/-- The largest finite value, and the value that the pattern of an infinity would have. -/
theorem patternMag_top : patternMag 0x7F7FFFFF = (2 ^ 25 - 2) * 2 ^ 252 ∧ patternMag 0x7F800000 = 2 ^ 25 * 2 ^ 252 := by
  refine ⟨?_, ?_⟩
  · rw [show 0x7F7FFFFF = 2 ^ 24 - 1 + 253 * 2 ^ 23 by norm_num, patternMag_significand (by norm_num) (by norm_num)]
    norm_num
  · rw [show 0x7F800000 = 2 ^ 23 + 254 * 2 ^ 23 by norm_num, patternMag_significand (by norm_num) (by norm_num)]
    norm_num

/-! ### Rounding lies between two neighbouring patterns -/

/-- The exact value `m` lies `below` above the value of the pattern `lo` and `above` below that of the next one, and is
rounded to the nearer, on a tie to the even one of the two. -/
structure RoundsBetween (m j lo below above : Nat) : Prop where
  lower : patternMag lo * 2 ^ j + below = m
  upper : m + above = patternMag (lo + 1) * 2 ^ j
  chosen :
    (roundPattern m j = lo ∧ (below < above ∨ (below = above ∧ lo % 2 = 0))) ∨
      (roundPattern m j = lo + 1 ∧ (above < below ∨ (below = above ∧ lo % 2 = 1)))

/-- What `roundShift` keeps has at most 24 bits, and 24 of them where more than the `j` lowest bits are cut. -/
theorem significand_bounds (m j : Nat) :
    m / 2 ^ max j (m.log2 - 23) < 2 ^ 24 ∧
      (max j (m.log2 - 23) - j ≠ 0 → 2 ^ 23 ≤ m / 2 ^ max j (m.log2 - 23)) := by
  refine ⟨?_, fun hk => ?_⟩
  · rw [Nat.div_lt_iff_lt_mul (Nat.two_pow_pos _), ← Nat.pow_add]
    exact Nat.lt_of_lt_of_le Nat.lt_log2_self (Nat.pow_le_pow_right (by norm_num) (by omega))
  · have hm : m ≠ 0 := by
      rintro rfl
      simp at hk
    rw [Nat.le_div_iff_mul_le (Nat.two_pow_pos _), ← Nat.pow_add]
    exact Nat.le_trans (Nat.pow_le_pow_right (by norm_num) (by omega)) (Nat.log2_self_le hm)

theorem exists_roundsBetween (m j : Nat) : ∃ lo below above, RoundsBetween m j lo below above := by
  obtain ⟨hd, hk⟩ := significand_bounds m j
  have hsplit : (2 : Nat) ^ max j (m.log2 - 23) = 2 ^ (max j (m.log2 - 23) - j) * 2 ^ j := by
    rw [← Nat.pow_add]
    congr 1
    omega
  have hlo := patternMag_significand (Nat.le_of_lt hd) hk
  have hhi := patternMag_significand hd fun h => Nat.le_succ_of_le (hk h)
  have hround : roundPattern m j = roundShift m (max j (m.log2 - 23)) + (max j (m.log2 - 23) - j) * 2 ^ 23 := rfl
  have hdiv := Nat.div_add_mod' m (2 ^ max j (m.log2 - 23))
  have hmod := Nat.mod_lt m (Nat.two_pow_pos (max j (m.log2 - 23)))
  unfold roundShift at hround
  dsimp only at hround
  generalize max j (m.log2 - 23) - j = k at *
  generalize (2 : Nat) ^ max j (m.log2 - 23) = unit at *
  refine ⟨m / unit + k * 2 ^ 23, m % unit, unit - m % unit, ?lower, ?upper, ?chosen⟩
  case lower => rw [hlo, Nat.mul_assoc, ← hsplit, hdiv]
  case upper =>
    rw [show m / unit + k * 2 ^ 23 + 1 = (m / unit).succ + k * 2 ^ 23 by omega, hhi, Nat.mul_assoc, ← hsplit,
      Nat.succ_mul]
    omega
  case chosen =>
    split at hround
    · right; omega
    · left; omega

/-! ### Rounding to nearest, ties to even -/

/-- No pattern is nearer than the one chosen, and of two equally near the even one is chosen; patterns from 0x7F800000 on
count here by the value they would have. -/
theorem roundPattern_nearest (m j p : Nat) :
    let near := ((patternMag (roundPattern m j) * 2 ^ j : Nat) : Int) - m
    let other := ((patternMag p * 2 ^ j : Nat) : Int) - m
    near.natAbs ≤ other.natAbs ∧
      (near.natAbs = other.natAbs → p ≠ roundPattern m j → roundPattern m j % 2 = 0) := by
  obtain ⟨lo, below, above, hlower, hupper, hchosen⟩ := exists_roundsBetween m j
  have hmono : StrictMono fun q => patternMag q * 2 ^ j :=
    patternMag_strictMono.mul_const (Nat.two_pow_pos j)
  have hbelow (hp : p < lo) : patternMag p * 2 ^ j < patternMag lo * 2 ^ j := hmono hp
  have habove (hp : lo + 1 < p) : patternMag (lo + 1) * 2 ^ j < patternMag p * 2 ^ j := hmono hp
  have hp : p < lo ∨ p = lo ∨ p = lo + 1 ∨ lo + 1 < p := by omega
  rcases hchosen with ⟨e, h⟩ | ⟨e, h⟩ <;> rw [e] <;> rcases hp with hp | rfl | rfl | hp <;> dsimp only
  case inl.inl | inr.inl =>
    have := hbelow hp
    omega
  case inl.inr.inr.inr | inr.inr.inr.inr =>
    have := habove hp
    omega
  all_goals omega

/-- Settles O48: the nearest of all patterns is the nearest of the finite ones. -/
theorem roundingIsNearestEven : Obligations.RoundingIsNearestEven := fun m j _ p _ => roundPattern_nearest m j p

/-- The overflow threshold lies half way between the largest finite value and the next. -/
theorem roundPattern_lt_iff (m j : Nat) : roundPattern m j < 0x7F800000 ↔ m < (2 ^ 25 - 1) * 2 ^ (252 + j) := by
  obtain ⟨lo, below, above, hlower, hupper, hchosen⟩ := exists_roundsBetween m j
  obtain ⟨hmax, hinf⟩ := patternMag_top
  have hmono : StrictMono fun q => patternMag q * 2 ^ j :=
    patternMag_strictMono.mul_const (Nat.two_pow_pos j)
  have hmax' : patternMag 0x7F7FFFFF * 2 ^ j = (2 ^ 25 - 2) * 2 ^ (252 + j) := by rw [hmax, Nat.mul_assoc, ← Nat.pow_add]
  have hinf' : patternMag 0x7F800000 * 2 ^ j = 2 ^ 25 * 2 ^ (252 + j) := by rw [hinf, Nat.mul_assoc, ← Nat.pow_add]
  have hpos := Nat.two_pow_pos (252 + j)
  have hlo : lo + 1 ≤ 0x7F7FFFFF ∨ lo = 0x7F7FFFFF ∨ 0x7F800000 ≤ lo := by omega
  generalize (2 : Nat) ^ (252 + j) = half at *
  rcases hlo with hlo | rfl | hlo
  · have : patternMag (lo + 1) * 2 ^ j ≤ patternMag 0x7F7FFFFF * 2 ^ j := hmono.monotone hlo
    omega
  · rw [show 0x7F7FFFFF + 1 = 0x7F800000 from rfl] at hupper
    omega
  · have : patternMag 0x7F800000 * 2 ^ j ≤ patternMag lo * 2 ^ j := hmono.monotone hlo
    omega

/-! ### The arithmetic -/

theorem roundNum_correctlyRounded (neg : Bool) (m j : Nat) : CorrectlyRounded neg m j (roundNum neg m j) := by
  refine ⟨fun h => ?_, fun h => ?_⟩
  · have hp := (roundPattern_lt_iff m j).mpr h
    exact ⟨roundPattern m j, hp, if_pos hp, fun q _ => roundPattern_nearest m j q⟩
  · exact if_neg fun hp => Nat.not_le.mpr ((roundPattern_lt_iff m j).mp hp) h

/-- The sum of two finite values (rule R190). -/
theorem fadd_fin (a b : Bool) (m n : Nat) :
    if signed a m + signed b n = 0 then fadd (some (.fin a m)) (some (.fin b n)) = some (.fin (a && b) 0)
    else ∃ z, fadd (some (.fin a m)) (some (.fin b n)) = some z ∧
      CorrectlyRounded (decide (signed a m + signed b n < 0)) (signed a m + signed b n).natAbs 0 z := by
  have hsum : fadd (some (.fin a m)) (some (.fin b n)) =
      if signed a m + signed b n = 0 then some (.fin (a && b) 0)
      else some (roundNum (decide (signed a m + signed b n < 0)) (signed a m + signed b n).natAbs 0) := rfl
  rw [hsum]
  split
  · rfl
  · exact ⟨_, rfl, roundNum_correctlyRounded _ _ _⟩

theorem signed_not (b : Bool) (n : Nat) : signed (!b) n = -signed b n := by cases b <;> simp [signed]

/-- Settles O49: `fsub` adds the operand with its sign turned, and the other cases are those of the definitions. -/
theorem binaryArithmeticIsCorrectlyRounded : Obligations.BinaryArithmeticIsCorrectlyRounded := by
  refine ⟨fun a b m n => ?finite, fun a b => ?infinite, fun x => ?nan⟩
  case finite =>
    have hsub := fadd_fin a (!b) m n
    rw [signed_not, ← sub_eq_add_neg] at hsub
    exact ⟨fadd_fin a b m n, hsub, ⟨_, rfl, roundNum_correctlyRounded _ _ _⟩, rfl, rfl, rfl, rfl, rfl,
      by rw [Bool.xor_comm]; rfl⟩
  case infinite => cases a <;> cases b <;> exact ⟨rfl, rfl, rfl⟩
  case nan => cases x <;> exact ⟨rfl, rfl, rfl, rfl, rfl, rfl⟩

/-- Settles O50: each function is its definition, and the integer part that of a division. -/
theorem binaryComparisonClampAndTruncation : Obligations.BinaryComparisonClampAndTruncation := by
  refine ⟨fun x => ⟨rfl, by cases x <;> rfl⟩, fun a b m n => ⟨decide_eq_true_iff, rfl, rfl, rfl⟩,
    fun lo hi => ⟨rfl, fun x => rfl⟩, rfl, fun m _ => ⟨Nat.div_mul_le_self m _, ?_⟩⟩
  exact Nat.lt_mul_of_div_lt (Nat.lt_succ_self _) (Nat.two_pow_pos 149)

/-! ### Patterns and values -/

/-- The value of a pattern by its sign bit and the 31 bits below it. -/
theorem f32OfBits_append (b : Bool) (y : BitVec 31) :
    f32OfBits (BitVec.ofBool b ++ y) =
      if y.toNat < 0x7F800000 then some (.fin b (patternMag y.toNat))
      else if y.toNat = 0x7F800000 then some (.inf b)
      else none := by
  have hlow : (BitVec.ofBool b ++ y : Word).extractLsb' 0 31 = y := BitVec.extractLsb'_append_eq_right
  have hsign : (BitVec.ofBool b ++ y : Word).getLsbD 31 = b := by
    simp [BitVec.getLsbD_append, -BitVec.getLsbD_eq_getElem, -Nat.reduceAdd]
  rw [f32OfBits, hlow, hsign]

theorem sign_append_low (x : Word) : BitVec.ofBool (x.getLsbD 31) ++ x.extractLsb' 0 31 = x := by
  ext i hi
  rw [BitVec.getElem_append]
  split
  case isTrue hlow => simp [BitVec.getLsbD_eq_getElem (show i < 32 by omega)]
  case isFalse hsign =>
    obtain rfl : i = 31 := by omega
    simp

/-- A pattern is found again from the value it has. -/
theorem roundPattern_patternMag (p : Nat) : roundPattern (patternMag p) 0 = p := by
  obtain ⟨hle, _⟩ := roundPattern_nearest (patternMag p) 0 p
  exact patternMag_strictMono.injective (by omega)

theorem toBits_of_f32OfBits {x : Word} {n : F32Num} (h : f32OfBits x = some n) : n.toBits = x := by
  rw [← sign_append_low x] at h ⊢
  rw [f32OfBits_append] at h
  split at h
  · cases h
    rw [F32Num.toBits, roundPattern_patternMag, BitVec.ofNat_toNat, BitVec.setWidth_eq]
  · split at h
    case isTrue hinf =>
      cases h
      have hlow : x.extractLsb' 0 31 = 0x7F800000 := BitVec.eq_of_toNat_eq hinf
      rw [F32Num.toBits, hlow]
    case isFalse => cases h

/-- A value that has a pattern. -/
def F32Num.HasPattern (n : F32Num) : Prop := f32OfBits n.toBits = some n

theorem hasPattern_of_f32OfBits {x : Word} {n : F32Num} (h : f32OfBits x = some n) : n.HasPattern := by
  rw [F32Num.HasPattern, toBits_of_f32OfBits h, h]

theorem hasPattern_inf (b : Bool) : (F32Num.inf b).HasPattern := f32OfBits_append b _

theorem hasPattern_fin (b : Bool) {p : Nat} (h : p < 0x7F800000) : (F32Num.fin b (patternMag p)).HasPattern := by
  have hp : (BitVec.ofNat 31 p).toNat = p := by
    rw [BitVec.toNat_ofNat]
    omega
  rw [F32Num.HasPattern, F32Num.toBits, roundPattern_patternMag, f32OfBits_append, hp, if_pos h]

theorem hasPattern_roundNum (b : Bool) (m j : Nat) : (roundNum b m j).HasPattern := by
  unfold roundNum
  dsimp only
  split
  · exact hasPattern_fin b ‹_›
  · exact hasPattern_inf b

/-- A sum that is no NaN has a pattern, whatever its operands. -/
theorem hasPattern_of_fadd {x y : F32} {n : F32Num} (h : fadd x y = some n) : n.HasPattern := by
  match x, y with
  | some (.inf a), some (.inf b) =>
    simp only [fadd, F32Num.add] at h
    split at h
    · cases h
      exact hasPattern_inf a
    · cases h
  | some (.inf a), some (.fin _ _) => cases h; exact hasPattern_inf a
  | some (.fin _ _), some (.inf b) => cases h; exact hasPattern_inf b
  | some (.fin a m), some (.fin b n) =>
    simp only [fadd, F32Num.add] at h
    split at h
    · cases h
      exact hasPattern_fin _ (p := 0) (by norm_num)
    · cases h
      exact hasPattern_roundNum _ _ _

/-- An integer of at most 24 bits is exact (rule R190): scaled by `2 ^ 149` it is the value of a pattern. -/
theorem roundNum_scaled (b : Bool) {m : Nat} (h : m < 2 ^ 24) : roundNum b (m * 2 ^ 149) 0 = .fin b (m * 2 ^ 149) := by
  have hpattern : ∃ p < 0x7F800000, patternMag p = m * 2 ^ 149 := by
    rcases Nat.eq_zero_or_pos m with rfl | hpos
    · exact ⟨0, by norm_num, by norm_num [patternMag]⟩
    · have hlog : m.log2 < 24 := (Nat.log2_lt (by omega)).mpr h
      have hle := Nat.log2_self_le (show m ≠ 0 by omega)
      have hlt := Nat.lt_log2_self (n := m)
      have hlow : 2 ^ 23 ≤ m * 2 ^ (23 - m.log2) :=
        calc
          2 ^ 23 = 2 ^ m.log2 * 2 ^ (23 - m.log2) := by rw [← Nat.pow_add]; congr 1; omega
          _ ≤ m * 2 ^ (23 - m.log2) := Nat.mul_le_mul_right _ hle
      have hhigh : m * 2 ^ (23 - m.log2) < 2 ^ 24 :=
        calc
          m * 2 ^ (23 - m.log2) < 2 ^ (m.log2 + 1) * 2 ^ (23 - m.log2) :=
            Nat.mul_lt_mul_of_pos_right hlt (Nat.two_pow_pos _)
          _ = 2 ^ 24 := by rw [← Nat.pow_add]; congr 1; omega
      refine ⟨m * 2 ^ (23 - m.log2) + (126 + m.log2) * 2 ^ 23, by omega, ?_⟩
      rw [patternMag_significand (Nat.le_of_lt hhigh) fun _ => hlow, Nat.mul_assoc, ← Nat.pow_add]
      congr 2
      omega
  obtain ⟨p, hp, e⟩ := hpattern
  rw [← e, roundNum, roundPattern_patternMag]
  exact if_pos hp

/-- The 31 bits below the sign are the exponent and the fraction (rule R93). -/
theorem low_eq_fields (x : Word) :
    (x.extractLsb' 0 31).toNat = (x.extractLsb' 23 8).toNat * 2 ^ 23 + (x.extractLsb' 0 23).toNat := by
  simp only [BitVec.extractLsb'_toNat, Nat.shiftRight_eq_div_pow]
  omega

theorem patternMag_fields (e : Nat) {f : Nat} (hf : f < 2 ^ 23) :
    patternMag (e * 2 ^ 23 + f) = if e = 0 then f else (2 ^ 23 + f) * 2 ^ (e - 1) := by
  unfold patternMag
  rw [show (e * 2 ^ 23 + f) / 2 ^ 23 = e by omega, show (e * 2 ^ 23 + f) % 2 ^ 23 = f by omega]
  split <;> simp_all

/-- Settles O51: by the fields below the sign, by the nearest pattern of a value that has one, and by its scaling. -/
theorem binaryPatternsRoundTrip : Obligations.BinaryPatternsRoundTrip := by
  refine ⟨fun x => ?fields, fun _ _ => toBits_of_f32OfBits, fun n hn => congrArg some (roundNum_scaled _ (by omega))⟩
  case fields =>
    intro e f
    have he : e < 256 := BitVec.isLt _
    have hf : f < 2 ^ 23 := BitVec.isLt _
    have hp : (x.extractLsb' 0 31).toNat = e * 2 ^ 23 + f := low_eq_fields x
    rw [f32OfBits, hp, patternMag_fields e hf]
    by_cases htop : e = 255
    · rw [if_neg (by omega), if_pos htop]
      exact if_congr (by omega) rfl rfl
    · rw [if_pos (by omega), if_neg htop]
      split <;> rfl

end Sys2Proof.Machine

/-! SUPPORT. The control cycle CTRL, continued (`43_relay_control.md` rules R156, R157, R161 and R166, `44_pid.md` rule
R192): the scale detector of a cycle, the cycle of a confirmed dry-fire, and where the integral may move. -/

namespace Sys2Proof.Machine

/-! ### The scale detector in a cycle (rule R156) -/

/-- The detector of a bank that the configuration of this cycle does not have is not run. -/
theorem detectors_banks_of_none (P : Params) {s : State} {b : Bank}
    (h : bankChambers (detectors P s).det.chamberCfg b = none) :
    (detectors P s).det.banks.get b = s.det.banks.get b := by
  rw [detectors_banks]
  simp only [h]

/-- The detector of a bank that it has runs on whether there is flow and the bank is hot. -/
theorem detectors_banks_of_some (P : Params) {s : State} {b : Bank} {chs : List Channel}
    (h : bankChambers (detectors P s).det.chamberCfg b = some chs) :
    ∃ anomaly : Bool,
      (anomaly = true ↔ s.inp.flowPresent = true ∧ BankHot P s (detectors P s).det.chamberCfg b) ∧
        (detectors P s).det.banks.get b = scaleStep P anomaly (s.det.banks.get b) := by
  rw [detectors_banks]
  simp only [h]
  refine ⟨_, ?_, rfl⟩
  rw [Bool.and_eq_true,
    hot_iff P { s with det := { s.det with chamberCfg := (detectors P s).det.chamberCfg } } h]
  cases b <;> exact Iff.rfl

/-- A report that depends on a lock is that of the command FREPORT where the lock is set. -/
theorem exists_freport_if (P : Params) (lock : Bool) {c : U8} (hc : c ≠ 0) (s : State) :
    ∃ o : State, (if lock then opFreport P c s = o else o = s) ∧ o.fr = frReportIf P lock s.fr c := by
  cases lock with
  | false => exact ⟨s, rfl, rfl⟩
  | true => exact ⟨_, rfl, by rw [opFreport_of_ne P hc]; rfl⟩

/-- Settles O35: each bank by whether the configuration has it, and the registry by the two reports in order. -/
theorem ctrlScaleDetectorLocksABank : Obligations.CtrlScaleDetectorLocksABank := by
  intro P s
  refine ⟨_, ctrlAnswers_opCtrl P s, ?_⟩
  rw [opCtrl_det, opCtrl_fr, detectors_fr]
  refine ⟨fun b => ?bank, ?registry⟩
  case bank =>
    have habsent := bankChambers_eq_none (detectors P s).det.chamberCfg b
    cases hb : bankChambers (detectors P s).det.chamberCfg b with
    | none =>
      rw [if_neg (habsent.mp hb)]
      exact detectors_banks_of_none P hb
    | some chs =>
      obtain ⟨anomaly, hanomaly, hstep⟩ := detectors_banks_of_some P hb
      rw [if_pos (not_not.mp fun h => by simp [habsent.mpr h] at hb)]
      dsimp only
      rw [hstep, ← hanomaly]
      have hconfirm : (scaleStep P anomaly (s.det.banks.get b)).scaleConfirm.toNat =
          if anomaly then min ((s.det.banks.get b).scaleConfirm.toNat + 1) 255 else 0 := confirmStep_toNat _ _
      refine ⟨fun h => hconfirm.trans (if_pos h), fun h => hconfirm.trans (if_neg h),
        scaleStep_scaleCnt_toNat P anomaly _, ?_⟩
      rw [scaleStep_bankLock, Bool.or_eq_true, decide_eq_true_eq]
  case registry =>
    obtain ⟨o, ho, hofr⟩ :=
      exists_freport_if P (detectors P s).det.banks.bank0.bankLock (c := 0x30) (by decide) s
    obtain ⟨u, hu, hufr⟩ :=
      exists_freport_if P (detectors P s).det.banks.bank1.bankLock (c := 0x31) (by decide) o
    rw [hofr] at hufr
    refine ⟨o, u, ho, ?_, hufr.symm⟩
    exact hu

/-! ### The cycle of a confirmed dry-fire (rule R157) -/

/-- With no fault and the outlet not over, the logic of such a cycle starts where the dry-fire transition led, with the
dwell loaded. -/
theorem beforeLogic_of_dryFire {P : Params} {s : State} (hf : (opCtrl P s).fr.faults = []) (ho : ¬OutletOver P s)
    (hd : DryFireActs P s (opCtrl P s)) :
    (beforeLogic P s).rc.status = (if s.rc.status = .standbyHeat then .standbyCool else .dryFireWait) ∧
      (afterDryFire P s).rc.status = (beforeLogic P s).rc.status ∧
      (afterDryFire P s).rc.dryFireWaitTimer = P.dryfireDwell := by
  have hb := beforeLogic_of_no_override hf (.inl ho)
  exact ⟨by rw [hb, afterDryFire_status_of_acts hd], by rw [hb], afterDryFire_dryFireWaitTimer_of_acts hd⟩

/-- In Running and LowFlow: DryFireWait, whose logic runs in the same cycle. -/
theorem opCtrl_of_dryFire_in_flow {P : Params} {s : State} (hf : (opCtrl P s).fr.faults = []) (ho : ¬OutletOver P s)
    (hd : DryFireActs P s (opCtrl P s)) (hs : s.rc.status ≠ .standbyHeat) :
    (beforeLogic P s).rc.status = .dryFireWait ∧
      (opCtrl P s).rc.dryFireWaitTimer.toNat =
        (if s.inp.flowPresent then P.dryfireDwell.toNat - 1 else P.dryfireDwell.toNat) ∧
      (opCtrl P s).rc.status =
        if s.inp.flowPresent then (if P.dryfireDwell.toNat ≤ 1 then statusByFlow s else .dryFireWait)
        else .shutdown := by
  obtain ⟨hc4, _, hdwell⟩ := beforeLogic_of_dryFire hf ho hd
  rw [if_neg hs] at hc4
  refine ⟨hc4, ?_, ?_⟩
  · rw [opCtrl_dryFireWaitTimer_toNat, hc4, hdwell]
    simp
  · rw [opCtrl_status, stateLogic_status_of_dryFireWait P hc4, beforeLogic_inp, beforeLogic_dryFireWaitTimer, hdwell]
    rw [statusByFlow, beforeLogic_inp, statusByFlow]

/-- In StandbyHeat: StandbyCool, whose logic runs in the same cycle and counts no timer down. -/
theorem opCtrl_of_dryFire_in_standbyHeat {P : Params} {s : State} (hf : (opCtrl P s).fr.faults = [])
    (ho : ¬OutletOver P s) (hd : DryFireActs P s (opCtrl P s)) (hs : s.rc.status = .standbyHeat) :
    (beforeLogic P s).rc.status = .standbyCool ∧ (beforeLogic P s).rc.dryFireWaitTimer = P.dryfireDwell ∧
      (opCtrl P s).rc.dryFireWaitTimer.toNat = P.dryfireDwell.toNat ∧
      (opCtrl P s).rc.status =
        if s.inp.flowPresent then (if P.dryfireDwell = 0 then .running else .dryFireWait)
        else if wantStandby P (beforeLogic P s) then .standbyHeat
        else .standbyCool := by
  obtain ⟨hc4, _, hdwell⟩ := beforeLogic_of_dryFire hf ho hd
  rw [if_pos hs] at hc4
  refine ⟨hc4, by rw [beforeLogic_dryFireWaitTimer, hdwell], ?_, ?_⟩
  · rw [opCtrl_dryFireWaitTimer_toNat, hc4, hdwell]
    simp
  · rw [opCtrl_status, stateLogic_status_of_standbyCool P hc4, beforeLogic_inp, beforeLogic_dryFireWaitTimer, hdwell]

/-- Settles O39: DryFireWait or StandbyCool by the state it ends, and their exits with the dwell just loaded. -/
theorem ctrlDryFireEndsHeating : Obligations.CtrlDryFireEndsHeating := by
  intro P s
  refine ⟨_, ctrlAnswers_opCtrl P s, fun hf ho hconfirm => ⟨fun hs => ?flow, fun hs => ?standby⟩⟩
  case flow =>
    have hd : DryFireActs P s (opCtrl P s) := ⟨hs.imp_right .inl, hconfirm⟩
    have hne : s.rc.status ≠ .standbyHeat := by rcases hs with h | h <;> simp [h]
    obtain ⟨hc4, htimer, hstatus⟩ := opCtrl_of_dryFire_in_flow hf ho hd hne
    split
    case isTrue hflow =>
      rw [if_pos hflow] at htimer hstatus
      exact ⟨htimer, hstatus⟩
    case isFalse hflow =>
      rw [if_neg hflow] at htimer hstatus
      exact ⟨htimer, hstatus, by simp [opCtrl_previousStatus_eq, hstatus, hc4]⟩
  case standby =>
    have hd : DryFireActs P s (opCtrl P s) := ⟨.inr (.inr hs), hconfirm⟩
    obtain ⟨_, hdwell, htimer, hstatus⟩ := opCtrl_of_dryFire_in_standbyHeat hf ho hd hs
    refine ⟨htimer, fun hflow => ?_, fun hflow hpending => ?_⟩
    · rw [hstatus, if_pos hflow]
      exact if_congr BitVec.toNat_inj.symm rfl rfl
    · have hno : wantStandby P (beforeLogic P s) = false := by
        refine Bool.eq_false_iff.mpr fun hwant => hpending ?_
        obtain ⟨_, hnone, _⟩ := (wantStandby_iff P _).mp hwant
        rw [← hdwell, hnone]
        rfl
      rw [hstatus, hflow, hno]
      simp

/-- Settles O43: with no dwell the wait that StandbyCool asks about is over at once. -/
theorem ctrlDryFireWithoutDwellRedecides : Obligations.CtrlDryFireWithoutDwellRedecides := by
  intro P s
  refine ⟨_, ctrlAnswers_opCtrl P s, fun hf ho hconfirm hs hflow hzero => ?_⟩
  have hd : DryFireActs P s (opCtrl P s) := ⟨.inr (.inr hs), hconfirm⟩
  obtain ⟨_, hmid, _⟩ := beforeLogic_of_dryFire hf ho hd
  obtain ⟨hc4, hdwell, _, hstatus⟩ := opCtrl_of_dryFire_in_standbyHeat hf ho hd hs
  have hwant : wantStandby P (beforeLogic P s) = true ↔
      WantsStandby P { s with rc := { s.rc with dryFireWaitTimer := 0 } } := by
    rw [wantStandby_iff, WantsStandby, beforeLogic_set, beforeLogic_inp, hdwell, hzero]
    exact Iff.rfl
  rw [hflow, if_neg (by simp)] at hstatus
  refine ⟨?saved, fun h => ?wanted, fun h => ?notWanted⟩
  case saved =>
    rw [opCtrl_previousStatus_eq, hmid, hc4, hs, hstatus]
    split <;> simp
  case wanted => rw [hstatus, if_pos (hwant.mpr h)]
  case notWanted => rw [hstatus, if_neg (mt hwant.mp h)]

/-! ### Where the integral may move (rules R192, R197) -/

/-- A logic that starts in a heating state starts with no fault and the outlet not over, since the overrides leave none. -/
theorem no_override_of_heats {P : Params} {s : State} (h : Heats (beforeLogic P s).rc.status) :
    (opCtrl P s).fr.faults = [] ∧ ¬OutletOver P s := by
  obtain ⟨hb, hd⟩ := beforeLogic_of_heats h
  have hmid := afterDryFire_of_not hd
  have hf : (opCtrl P s).fr.faults = [] := by
    by_contra hne
    rw [beforeLogic_rc_of_fault hne, enter_status] at h
    simp [Heats] at h
  refine ⟨hf, fun ho => ?_⟩
  have hne : ∀ st, (afterDryFire P s).rc.status = st → ¬Heats st → False := fun st e hst => by
    rw [hb, ← hmid, e] at h
    exact hst h
  rw [beforeLogic_rc_of_over hf ho (fun e => hne _ e (by simp [Heats])) (fun e => hne _ e (by simp [Heats])),
    enter_status] at h
  simp [Heats] at h

/-- A cycle leaves the integral, or it is a cycle whose logic runs the PID step on what the detectors left. -/
theorem opCtrl_integral_cases (P : Params) (s : State) :
    (opCtrl P s).rc.integral = s.rc.integral ∨
      (beforeLogic P s = detectors P s ∧ ¬DryFireActs P s (opCtrl P s) ∧ (opCtrl P s).fr.faults = [] ∧
        ¬OutletOver P s ∧ PidRuns (detectors P s) ∧ s.inp.temps.outlet.detected = true) := by
  obtain ⟨_, _, _, hint, _⟩ := beforeLogic_frame P s
  refine (stateLogic_integral P (beforeLogic P s)).imp (fun h => ?_) fun ⟨hflow, hflag, hout, hs⟩ => ?_
  · rw [opCtrl_integral, h, hint]
  · have hheats : Heats (beforeLogic P s).rc.status := hs.imp And.left fun h => .inl h.1
    obtain ⟨hb, hd⟩ := beforeLogic_of_heats hheats
    obtain ⟨hf, ho⟩ := no_override_of_heats hheats
    rw [beforeLogic_inp] at hout
    exact ⟨hb, hd, hf, ho, hb ▸ ⟨hflow, hflag, hs⟩, hout⟩

/-- Settles O44: the cycle in which the PID step runs with a valid outlet is this one. -/
theorem ctrlIntegralMovesOnlyInThePidStep : Obligations.CtrlIntegralMovesOnlyInThePidStep := by
  intro P s
  refine ⟨_, ctrlAnswers_opCtrl P s, (opCtrl_integral_cases P s).imp_right ?_⟩
  rintro ⟨hb, hd, hf, ho, ⟨hflow, hflag, hs⟩, hout⟩
  rw [detectors_inp] at hflow hs
  rw [detectors_status] at hs
  have hheats : Heats s.rc.status := hs.imp And.left fun h => .inl h.1
  obtain ⟨hkeep, _⟩ := stateLogic_frame P (beforeLogic P s)
  refine ⟨hf, ho, Nat.not_le.mp fun hle => hd ⟨hheats, hle⟩, hflow, ?_, hout, hs⟩
  rw [opCtrl_shutdownFlag, hkeep, hb, hflag]

end Sys2Proof.Machine

/-! SUPPORT. The machine as a whole (`10_state.md` rules R22, R27 and R28, `40_fault_registry.md` rule R112,
`70_reset_and_hazards.md` rules R203, R250 and R264): which operations run a control cycle, what the others leave, and from
these what every step keeps. -/

namespace Sys2Proof.Machine

/-! ### Which part of the state each operation writes

What an operation writes is said up to the response port: `silent` empties it, and two states that agree up to it agree in
every element. -/

theorem pm_eq_of_silent {s t : State} (e : t.silent = s.silent) : t.pm = s.pm :=
  calc
    t.pm = t.silent.pm := rfl
    _ = s.silent.pm := by rw [e]

theorem rc_eq_of_silent {s t : State} (e : t.silent = s.silent) : t.rc = s.rc :=
  calc
    t.rc = t.silent.rc := rfl
    _ = s.silent.rc := by rw [e]

theorem det_eq_of_silent {s t : State} (e : t.silent = s.silent) : t.det = s.det :=
  calc
    t.det = t.silent.det := rfl
    _ = s.silent.det := by rw [e]

theorem fr_eq_of_silent {s t : State} (e : t.silent = s.silent) : t.fr = s.fr :=
  calc
    t.fr = t.silent.fr := rfl
    _ = s.silent.fr := by rw [e]

theorem set_eq_of_silent {s t : State} (e : t.silent = s.silent) : t.set = s.set :=
  calc
    t.set = t.silent.set := rfl
    _ = s.silent.set := by rw [e]

/-- The operation runs a control cycle: CTRL, and a TICK that finds the prescaler at 0. -/
def RunsCycle (i : Instr) (s : State) : Prop := i = .ctrl ∨ (i = .tick ∧ s.ctrlCnt = 0)

theorem opWrreg_silent (P : Params) (a : U8) (v : Word) (s : State) :
    (opWrreg P a v s).silent = { s with set := (opWrreg P a v s).set, inp := (opWrreg P a v s).inp }.silent := by
  have hwrite : ∀ w : Reg, regWrite s w v = { s with set := (regWrite s w v).set, inp := (regWrite s w v).inp } := by
    intro w
    cases w <;> rfl
  rcases opWrreg_cases P a v s with ⟨_, e⟩ | ⟨w, _, _, _, _, e⟩ <;> rw [e]
  · rfl
  · rw [silent_respond]
    exact congrArg State.silent (hwrite w)

theorem opFreport_silent (P : Params) (c : U8) (s : State) :
    (opFreport P c s).silent = { s with fr := (opFreport P c s).fr }.silent := by
  unfold opFreport
  split <;> rfl

theorem opFclear_silent (c : U8) (s : State) :
    (opFclear c s).silent = { s with fr := (opFclear c s).fr }.silent := by
  unfold opFclear
  split <;> rfl

theorem opThchk_silent (P : Params) (a : U8) (s : State) :
    (opThchk P a s).silent = { s with th := (opThchk P a s).th, fr := (opThchk P a s).fr }.silent := by
  rcases opThchk_cases P a s with ⟨_, e⟩ | ⟨ch, _, e⟩ <;> rw [e] <;> rfl

theorem tickCrossing_frame (P : Params) (s : State) : tickCrossing P s = { s with pm := (tickCrossing P s).pm } := by
  unfold tickCrossing
  split <;> rfl

theorem tickCrossing_of_no_event (P : Params) {s : State} (h : s.pm.zcPending ≠ true) : tickCrossing P s = s :=
  if_neg h

/-- A TICK that runs no control cycle writes the modulator and the prescaler. -/
theorem opTick_silent_of_ne_zero (P : Params) {s : State} (h : s.ctrlCnt ≠ 0) :
    (opTick P s).silent = { s with pm := (tickCrossing P s).pm, ctrlCnt := s.ctrlCnt - 1 }.silent := by
  rw [opTick, silent_respond, tickControl_of_ne_zero P (by simpa using h), tickCrossing_frame]

/-- `t` is the state that CTRL leads to from `x`, the prescaler and the response aside. -/
structure CycleFrom (x t : State) : Prop where
  pm : t.pm = (opCtrl Config.params x).pm
  rc : t.rc = (opCtrl Config.params x).rc
  det : t.det = (opCtrl Config.params x).det
  fr : t.fr = (opCtrl Config.params x).fr
  set : t.set = (opCtrl Config.params x).set

theorem opCtrl_cycleFrom (s : State) : CycleFrom s (opCtrl Config.params s) := ⟨rfl, rfl, rfl, rfl, rfl⟩

/-- A TICK that runs one is CTRL after the crossing. -/
theorem opTick_cycleFrom {s : State} (h : s.ctrlCnt = 0) :
    CycleFrom { s with pm := (tickCrossing Config.params s).pm } (opTick Config.params s) := by
  rw [opTick, tickControl_of_zero (by simpa using h), ← tickCrossing_frame]
  constructor <;> simp only [opCtrl, State.respond_pm, State.respond_rc, State.respond_det, State.respond_fr,
    State.respond_set]

/-- Outside a control cycle no operation but SRESET writes the relay control or the detectors. -/
theorem answer_rc_det_of_no_cycle {i : Instr} {s : State} (hi : i ≠ .sreset) (h : ¬RunsCycle i s) :
    (answer i s).rc = s.rc ∧ (answer i s).det = s.det := by
  have both {t u : State} (e : t.silent = u.silent) (hu : u.rc = s.rc ∧ u.det = s.det) :
      t.rc = s.rc ∧ t.det = s.det := by
    rwa [rc_eq_of_silent e, det_eq_of_silent e]
  cases i with
  | nop | fcount | zcedge | xcross | setduty | setforce | clrforce => exact ⟨rfl, rfl⟩
  | sreset => exact absurd rfl hi
  | ctrl => exact absurd (.inl rfl) h
  | rdreg a => exact both (opRdreg_silent _ a s) ⟨rfl, rfl⟩
  | wrreg a v => exact both (opWrreg_silent _ a v s) ⟨rfl, rfl⟩
  | freport c => exact both (opFreport_silent _ c s) ⟨rfl, rfl⟩
  | fclear c => exact both (opFclear_silent c s) ⟨rfl, rfl⟩
  | fexists c => exact both (opFexists_silent c s) ⟨rfl, rfl⟩
  | thchk a => exact both (opThchk_silent _ a s) ⟨rfl, rfl⟩
  | tick => exact both (opTick_silent_of_ne_zero _ fun h0 => h (.inr ⟨rfl, h0⟩)) ⟨rfl, rfl⟩

/-- A control cycle is that of CTRL, from the state with the modulator as a crossing of the same tick has left it. -/
theorem answer_of_cycle {i : Instr} {s : State} (h : RunsCycle i s) :
    ∃ m, (m = s.pm ∨ m = (tickCrossing Config.params s).pm) ∧ CycleFrom { s with pm := m } (answer i s) := by
  rcases h with rfl | ⟨rfl, h0⟩
  · exact ⟨s.pm, .inl rfl, opCtrl_cycleFrom s⟩
  · exact ⟨_, .inr rfl, opTick_cycleFrom h0⟩

/-! ### The outputs move only in their operations (rule R264) -/

/-- Two modulator states show the same switches and output-state flag. -/
def SameSwitches (m n : ModulatorState) : Prop := m.opto0 = n.opto0 ∧ m.opto1 = n.opto1 ∧ m.optoStatus = n.optoStatus

theorem opCtrl_switches (P : Params) (s : State) : SameSwitches (opCtrl P s).pm s.pm := by
  rw [opCtrl_pm, bookkeeping_pm]
  exact ⟨rfl, rfl, rfl⟩

theorem answer_switches {i : Instr} {s : State} (hi : i ≠ .sreset) (hx : i ≠ .xcross)
    (ht : ¬(i = .tick ∧ s.pm.zcPending = true)) : SameSwitches (answer i s).pm s.pm := by
  have same {t u : State} (e : t.silent = u.silent) (h : SameSwitches u.pm s.pm) : SameSwitches t.pm s.pm := by
    rwa [pm_eq_of_silent e]
  have stay : SameSwitches s.pm s.pm := ⟨rfl, rfl, rfl⟩
  cases i with
  | nop | fcount | zcedge | setduty | setforce | clrforce => exact ⟨rfl, rfl, rfl⟩
  | sreset => exact absurd rfl hi
  | xcross => exact absurd rfl hx
  | ctrl => exact opCtrl_switches _ s
  | rdreg a => exact same (opRdreg_silent _ a s) stay
  | wrreg a v => exact same (opWrreg_silent _ a v s) stay
  | freport c => exact same (opFreport_silent _ c s) stay
  | fclear c => exact same (opFclear_silent c s) stay
  | fexists c => exact same (opFexists_silent c s) stay
  | thchk a => exact same (opThchk_silent _ a s) stay
  | tick =>
    have hno := tickCrossing_of_no_event Config.params fun h => ht ⟨rfl, h⟩
    by_cases h0 : s.ctrlCnt = 0
    · rw [answer_tick, (opTick_cycleFrom h0).pm, hno]
      exact opCtrl_switches _ s
    · refine same (opTick_silent_of_ne_zero _ h0) ?_
      rw [hno]
      exact stay

/-- Settles O56: the switches by operation, the relay control by whether a control cycle runs. -/
theorem outputsMoveOnlyInTheirOperations : Obligations.OutputsMoveOnlyInTheirOperations := by
  intro i s hi
  refine ⟨answer i s, exec_eq_answer i s, answer_switches hi, fun hctrl htick => ?_⟩
  obtain ⟨hrc, _⟩ := answer_rc_det_of_no_cycle hi fun h => h.elim hctrl htick
  exact hrc

/-! ### The registry -/

/-- A property of the registry that every report and every clear of a nonzero code keeps is kept by every operation but
SRESET. -/
theorem answer_fr_induction {p : RegistryState → Prop} {i : Instr} {s : State} (hi : i ≠ .sreset) (h : p s.fr)
    (hreport : ∀ fr c, c ≠ 0 → p fr → p (frReport Config.params fr c).1)
    (hclear : ∀ fr c, p fr → p (frClear fr c).1) : p (answer i s).fr := by
  have stay {t : State} (e : t.silent = s.silent) : p t.fr := by rwa [fr_eq_of_silent e]
  have cycle (x : State) (hx : p x.fr) : p (opCtrl Config.params x).fr := by
    rw [opCtrl_fr, detectors_fr]
    have hfirst := frReportIf_induction (detectors Config.params x).det.banks.bank0.bankLock hx
      (hreport _ 0x30 (by decide) hx)
    exact frReportIf_induction _ hfirst (hreport _ 0x31 (by decide) hfirst)
  have reportOrClear (fault : Bool) {c : U8} (hc : c ≠ 0) {fr : RegistryState} (hfr : p fr) :
      p (reportOrClear Config.params fault fr c) := by
    cases fault
    · exact hclear fr c hfr
    · exact hreport fr c hc hfr
  cases i with
  | nop | fcount | zcedge | xcross | setduty | setforce | clrforce => exact h
  | sreset => exact absurd rfl hi
  | rdreg a => exact stay (opRdreg_silent _ a s)
  | fexists c => exact stay (opFexists_silent c s)
  | wrreg a v =>
    obtain ⟨_, _, _, _, hfr, _⟩ := opWrreg_frame Config.params a v s
    rwa [answer_wrreg, hfr]
  | freport c =>
    by_cases hc : c = 0
    · rwa [hc, answer_freport, opFreport_zero]
    · rw [answer_freport, opFreport_of_ne _ hc]
      exact hreport _ c hc h
  | fclear c =>
    by_cases hc : c = 0
    · rwa [hc, answer_fclear, opFclear_zero]
    · rw [answer_fclear, opFclear_of_ne hc]
      exact hclear _ c h
  | thchk a =>
    rcases opThchk_cases Config.params a s with ⟨_, e⟩ | ⟨ch, _, e⟩
    · rwa [answer_thchk, e]
    · rw [answer_thchk, e, State.respond_fr, thermistorCheck_fr]
      exact reportOrClear _ (shortCode_ne_zero ch) (reportOrClear _ (openCode_ne_zero ch) h)
  | ctrl => exact cycle s h
  | tick =>
    by_cases h0 : s.ctrlCnt = 0
    · rw [answer_tick, (opTick_cycleFrom h0).fr]
      exact cycle _ h
    · rwa [answer_tick, fr_eq_of_silent (opTick_silent_of_ne_zero _ h0)]

/-! ### What only a reset undoes (rules R203, R250) -/

theorem opCtrl_bankLock_of_locked (P : Params) {s : State} {b : Bank} (h : (s.det.banks.get b).bankLock = true) :
    ((opCtrl P s).det.banks.get b).bankLock = true := by
  rw [opCtrl_det]
  dsimp only
  cases hb : bankChambers (detectors P s).det.chamberCfg b with
  | none => rwa [detectors_banks_of_none P hb]
  | some chs =>
    obtain ⟨anomaly, _, hstep⟩ := detectors_banks_of_some P hb
    rw [hstep]
    exact scaleStep_bankLock_of_locked P anomaly h

theorem opCtrl_chamberCfg_of_detected (P : Params) {s : State} (h : s.det.chamberCfg ≠ .undetected) :
    (opCtrl P s).det.chamberCfg = s.det.chamberCfg := by
  rw [opCtrl_det]
  exact (detectors_chamberCfg P s).trans (if_neg fun h' => h h'.2)

/-- The locks that stay and the configuration that does not change, from one detector state to a later one. -/
structure DetectorSticks (d e : DetectorState) : Prop where
  lock : ∀ b : Bank, (d.banks.get b).bankLock = true → (e.banks.get b).bankLock = true
  cfg : d.chamberCfg ≠ .undetected → e.chamberCfg = d.chamberCfg

theorem answer_detectorSticks {i : Instr} (hi : i ≠ .sreset) (s : State) :
    DetectorSticks s.det (answer i s).det := by
  by_cases h : RunsCycle i s
  · obtain ⟨m, _, hcycle⟩ := answer_of_cycle h
    rw [hcycle.det]
    exact ⟨fun b => opCtrl_bankLock_of_locked _ (s := { s with pm := m }),
      opCtrl_chamberCfg_of_detected _ (s := { s with pm := m })⟩
  · obtain ⟨_, hdet⟩ := answer_rc_det_of_no_cycle hi h
    rw [hdet]
    exact ⟨fun _ => id, fun _ => rfl⟩

/-- Settles O54: the registry by the reports and clears of an operation, the detectors by their cycle. -/
theorem stickyStateLeavesOnlyByReset : Obligations.StickyStateLeavesOnlyByReset := by
  intro s t hstep hr
  rcases step_cases hstep hr with e | ⟨i, hi, e⟩
  · rw [fr_eq_of_silent e, det_eq_of_silent e]
    exact ⟨fun _ _ _ => id, id, fun _ => id, fun _ => rfl⟩
  · rw [fr_eq_of_silent e, det_eq_of_silent e]
    obtain ⟨hlock, hcfg⟩ := answer_detectorSticks hi s.takeEvent
    refine ⟨fun c hlow hhigh hmem => ?_, fun hset => ?_, hlock, hcfg⟩
    · have hB : c ∈ Config.classB := (mem_classB c).mpr ⟨hlow, hhigh⟩
      exact answer_fr_induction (p := fun fr => c ∈ fr.faults) hi hmem (fun _ _ _ => mem_frReport_of_mem _)
        fun _ _ h => mem_frClear_of_mem_classB h hB
    · exact answer_fr_induction (p := fun fr => fr.overflow = true) hi hset (fun _ _ _ => overflow_frReport _)
        fun fr c h => (overflow_frClear fr c).trans h

/-! ### The exits of Error and ErrorWait (rules R28, R175) -/

theorem opCtrl_status_of_error (P : Params) {s : State} (h : s.rc.status = .error) :
    (opCtrl P s).rc.status = .error ∨ (opCtrl P s).rc.status = .errorWait := by
  by_cases hf : (opCtrl P s).fr.faults = []
  · obtain ⟨_, ⟨rfl, _⟩, hreturn, _⟩ := ctrlReturnsThroughErrorWait P s
    exact .inr (hreturn h hf).1
  · obtain ⟨_, ⟨rfl, _⟩, hforce⟩ := ctrlFaultForcesError P s
    exact .inl (hforce hf).1

theorem opCtrl_status_of_errorWait (P : Params) {s : State} (h : s.rc.status = .errorWait) :
    (opCtrl P s).rc.status = .errorWait ∨ (opCtrl P s).rc.status = .initial ∨
      (opCtrl P s).rc.status = .error := by
  by_cases hf : (opCtrl P s).fr.faults = []
  · obtain ⟨_, ⟨rfl, _⟩, _, hdwell⟩ := ctrlReturnsThroughErrorWait P s
    obtain ⟨_, hstatus⟩ := hdwell h hf
    split at hstatus
    · exact .inr (.inl hstatus.1)
    · exact .inl hstatus
  · obtain ⟨_, ⟨rfl, _⟩, hforce⟩ := ctrlFaultForcesError P s
    exact .inr (.inr (hforce hf).1)

/-- Settles O47: only a control cycle writes the status, and its exits from these two states are those of CTRL. -/
theorem errorIsLeftOnlyThroughErrorWait : Obligations.ErrorIsLeftOnlyThroughErrorWait := by
  intro s t hstep hr
  rcases step_cases hstep hr with e | ⟨i, hi, e⟩
  · rw [rc_eq_of_silent e]
    exact ⟨.inl, .inl⟩
  · rw [rc_eq_of_silent e]
    by_cases h : RunsCycle i s.takeEvent
    · obtain ⟨m, _, hcycle⟩ := answer_of_cycle h
      rw [hcycle.rc]
      exact ⟨opCtrl_status_of_error _ (s := { s.takeEvent with pm := m }),
        opCtrl_status_of_errorWait _ (s := { s.takeEvent with pm := m })⟩
    · obtain ⟨hrc, _⟩ := answer_rc_det_of_no_cycle hi h
      rw [hrc]
      exact ⟨.inl, .inl⟩

/-! ### The order of the codes (rule R112) -/

/-- The codes of `l` that `l'` still has stand in `l'` in their old order, before all codes that are new in it. -/
def KeepsOrder (l l' : List U8) : Prop := ∃ kept new, kept.Sublist l ∧ l' = kept ++ new ∧ ∀ c ∈ new, c ∉ l

theorem KeepsOrder.refl (l : List U8) : KeepsOrder l l := ⟨l, [], .refl l, l.append_nil.symm, nofun⟩

theorem KeepsOrder.nil (l : List U8) : KeepsOrder l [] := ⟨[], [], l.nil_sublist, rfl, nofun⟩

/-- A report keeps the order, unless its code has been removed from `l` before. -/
theorem KeepsOrder.report {P : Params} {l : List U8} {fr : RegistryState} {c : U8} (h : KeepsOrder l fr.faults)
    (hc : c ∈ l → c ∈ fr.faults) : KeepsOrder l (frReport P fr c).1.faults := by
  rcases frReport_cases P fr c with ⟨_, e⟩ | ⟨_, _, e⟩ | ⟨hno, _, e⟩ <;> rw [e]
  · exact h
  · exact h
  · obtain ⟨kept, new, hkept, hl', hnew⟩ := h
    refine ⟨kept, new ++ [c], hkept, by simp [hl'], fun d hd => ?_⟩
    rcases List.mem_append.mp hd with hd | hd
    · exact hnew d hd
    · rw [List.mem_singleton.mp hd]
      exact fun hmem => hno (hc hmem)

theorem KeepsOrder.clear {l : List U8} {fr : RegistryState} (c : U8) (h : KeepsOrder l fr.faults) :
    KeepsOrder l (frClear fr c).1.faults := by
  rcases frClear_cases fr c with ⟨_, e⟩ | ⟨_, _, e⟩ <;> rw [e]
  · exact h
  · obtain ⟨kept, new, hkept, hl', hnew⟩ := h
    dsimp only
    rw [hl', List.erase_append]
    split
    · exact ⟨kept.erase c, new, (List.erase_sublist ..).trans hkept, rfl, hnew⟩
    · exact ⟨kept, new.erase c, hkept, rfl, fun d hd => hnew d (List.mem_of_mem_erase hd)⟩

/-- Without duplicates a sublist is what filtering by its members leaves. -/
theorem filter_mem_of_sublist {k l : List U8} (h : k.Sublist l) (hl : l.Nodup) :
    l.filter (fun c => decide (c ∈ k)) = k := by
  have hsub : k.Sublist (l.filter (fun c => decide (c ∈ k))) := by
    have hself : k.filter (fun c => decide (c ∈ k)) = k := List.filter_eq_self.mpr fun c hc => decide_eq_true hc
    have hfilter := h.filter (fun c => decide (c ∈ k))
    rwa [hself] at hfilter
  have hle := ((hl.filter fun c => decide (c ∈ k)).subperm fun c hc => by simpa using (List.mem_filter.mp hc).2).length_le
  exact (hsub.eq_of_length_le hle).symm

theorem KeepsOrder.filter_eq {l l' : List U8} (h : KeepsOrder l l') (hl : l.Nodup) :
    l.filter (fun c => decide (c ∈ l')) = l'.filter (fun c => decide (c ∈ l)) := by
  obtain ⟨kept, new, hkept, rfl, hnew⟩ := h
  have hold : l.filter (fun c => decide (c ∈ kept ++ new)) = kept := by
    rw [← filter_mem_of_sublist hkept hl]
    refine List.filter_congr fun c hc => ?_
    rw [filter_mem_of_sublist hkept hl, decide_eq_decide, List.mem_append]
    exact or_iff_left fun h => hnew c h hc
  have hkeep : kept.filter (fun c => decide (c ∈ l)) = kept :=
    List.filter_eq_self.mpr fun c hc => decide_eq_true (hkept.subset hc)
  have hdrop : new.filter (fun c => decide (c ∈ l)) = [] :=
    List.filter_eq_nil_iff.mpr fun c hc => by simpa using hnew c hc
  rw [hold, List.filter_append, hkeep, hdrop, List.append_nil]

theorem openCode_ne_shortCode (ch : Channel) : shortCode ch ≠ openCode ch := by cases ch <;> decide

theorem mem_frClear_of_ne {fr : RegistryState} {c d : U8} (h : d ∈ fr.faults) (hne : d ≠ c) :
    d ∈ (frClear fr c).1.faults := by
  rcases frClear_cases fr c with ⟨_, e⟩ | ⟨_, _, e⟩ <;> rw [e]
  · exact h
  · exact (List.mem_erase_of_ne hne).mpr h

/-- The check of one channel clears one code and reports another. -/
theorem thermistorCheck_keepsOrder (P : Params) (ch : Channel) (s : State) :
    KeepsOrder s.fr.faults (thermistorCheck P ch s).fr.faults := by
  have one {fr : RegistryState} (fault : Bool) {c : U8} (h : KeepsOrder s.fr.faults fr.faults)
      (hc : c ∈ s.fr.faults → c ∈ fr.faults) : KeepsOrder s.fr.faults (reportOrClear P fault fr c).faults := by
    cases fault
    · exact h.clear c
    · exact h.report hc
  rw [thermistorCheck_fr]
  refine one _ (one _ (.refl _) id) fun hmem => ?_
  unfold reportOrClear
  split
  · exact mem_frReport_of_mem P hmem
  · exact mem_frClear_of_ne hmem (openCode_ne_shortCode ch)

/-- The two reports of a control cycle remove nothing. -/
theorem opCtrl_keepsOrder (P : Params) (s : State) : KeepsOrder s.fr.faults (opCtrl P s).fr.faults := by
  rw [opCtrl_fr, detectors_fr]
  have first := frReportIf_induction (P := P) (c := 0x30)
    (p := fun fr => KeepsOrder s.fr.faults fr.faults ∧ s.fr.faults ⊆ fr.faults)
    (detectors P s).det.banks.bank0.bankLock ⟨.refl _, List.Subset.refl _⟩
    ⟨KeepsOrder.report (.refl _) id, fun _ => mem_frReport_of_mem P⟩
  obtain ⟨horder, hall⟩ := first
  exact frReportIf_induction (p := fun fr => KeepsOrder s.fr.faults fr.faults) _ horder
    (horder.report fun h => hall h)

theorem answer_keepsOrder (i : Instr) (s : State) : KeepsOrder s.fr.faults (answer i s).fr.faults := by
  have same {t : State} (e : t.silent = s.silent) : KeepsOrder s.fr.faults t.fr.faults := by
    rw [fr_eq_of_silent e]
    exact .refl _
  cases i with
  | nop | fcount | zcedge | xcross | setduty | setforce | clrforce => exact .refl _
  | sreset => exact .nil _
  | rdreg a => exact same (opRdreg_silent _ a s)
  | fexists c => exact same (opFexists_silent c s)
  | wrreg a v =>
    obtain ⟨_, _, _, _, hfr, _⟩ := opWrreg_frame Config.params a v s
    rw [answer_wrreg, hfr]
    exact .refl _
  | freport c =>
    by_cases hc : c = 0
    · rw [hc, answer_freport, opFreport_zero]
      exact .refl _
    · rw [answer_freport, opFreport_of_ne _ hc]
      exact KeepsOrder.report (.refl _) id
  | fclear c =>
    by_cases hc : c = 0
    · rw [hc, answer_fclear, opFclear_zero]
      exact .refl _
    · rw [answer_fclear, opFclear_of_ne hc]
      exact KeepsOrder.clear c (.refl _)
  | thchk a =>
    rcases opThchk_cases Config.params a s with ⟨_, e⟩ | ⟨ch, _, e⟩ <;> rw [answer_thchk, e]
    · exact .refl _
    · exact thermistorCheck_keepsOrder _ ch s
  | ctrl => exact opCtrl_keepsOrder _ s
  | tick =>
    by_cases h0 : s.ctrlCnt = 0
    · rw [answer_tick, (opTick_cycleFrom h0).fr]
      exact opCtrl_keepsOrder _ { s with pm := (tickCrossing Config.params s).pm }
    · rw [answer_tick, fr_eq_of_silent (opTick_silent_of_ne_zero _ h0)]
      exact .refl _

/-- Settles O55: a reset leaves no code, and every operation keeps the order of the codes it leaves. -/
theorem stepKeepsTheOrderOfCodes : Obligations.StepKeepsTheOrderOfCodes := by
  intro s t hnodup hstep
  refine KeepsOrder.filter_eq ?_ hnodup
  by_cases hr : TakesReset s
  · rw [fr_eq_of_silent (step_of_takesReset hstep hr)]
    exact .nil _
  · rcases step_cases hstep hr with e | ⟨i, _, e⟩
    · rw [fr_eq_of_silent e]
      exact .refl _
    · rw [fr_eq_of_silent e]
      exact answer_keepsOrder i s.takeEvent

end Sys2Proof.Machine

/-! SUPPORT. The invariant (`10_state.md` rules R22 and R27, `40_fault_registry.md` rule R112, `42_modulator.md` rule R140,
`43_relay_control.md` rule R172): it holds at reset, every operation keeps each of its parts, and so does every step. -/

namespace Sys2Proof.Machine

/-! ### The integral (rules R22, R192) -/

theorem F32Num.lt_irrefl (x : F32Num) : x.lt x = false := by
  cases x with
  | inf neg => cases neg <;> rfl
  | fin neg mag => exact decide_eq_false (Int.lt_irrefl _)

theorem hasPattern_zero : F32Num.zero.HasPattern := hasPattern_fin false (p := 0) (by norm_num)

theorem hasPattern_integralLimit (P : Params) : (integralLimit P).HasPattern := by
  unfold integralLimit
  split
  · exact hasPattern_zero
  case h_2 x hx =>
    split
    · exact hasPattern_zero
    · exact hasPattern_of_f32OfBits hx

/-- The clamp of rule R192 answers a number in its bounds, and the sum it clamps has a pattern. -/
theorem integralInRange_pidIntegral (P : Params) (s : State) : IntegralInRange P (pidIntegral P s).toBits := by
  have hlimit := integralLimit_not_neg P
  unfold pidIntegral
  rcases fclamp_cases (fadd (f32OfBits s.rc.integral) (pidError s)) F32Num.zero (integralLimit P) with
    e | e | ⟨y, hy, hlo, hhi, e⟩ <;> rw [e]
  · exact ⟨_, hasPattern_zero, F32Num.lt_irrefl _, hlimit⟩
  · exact ⟨_, hasPattern_integralLimit P, hlimit, F32Num.lt_irrefl _⟩
  · exact ⟨y, hasPattern_of_fadd hy, hlo, hhi⟩

theorem integralInRange_zero (P : Params) : IntegralInRange P 0 :=
  ⟨F32Num.zero, f32OfBits_zero, F32Num.lt_irrefl _, integralLimit_not_neg P⟩

/-- A cycle leaves the integral or writes the clamped one. -/
theorem opCtrl_integralInRange (P : Params) {s : State} (h : IntegralInRange P s.rc.integral) :
    IntegralInRange P (opCtrl P s).rc.integral := by
  rcases opCtrl_integral_cases P s with e | ⟨hb, _, _, _, hruns, hout⟩
  · rwa [e]
  · obtain ⟨hi, _⟩ := pidStep_of_detected P (s := detectors P s) (by simpa using hout)
    rw [opCtrl_integral, hb, stateLogic_of_pidRuns P hruns, hi]
    exact integralInRange_pidIntegral P _

/-! ### The modulator (rules R27, R140) -/

theorem dutyRequest_le (P : Params) (st : Status) {pidOut : Option U8} {old : U8} (hold : old.toNat ≤ 120)
    (hpid : ∀ d, pidOut = some d → d.toNat ≤ 120) : (dutyRequest P st pidOut old).toNat ≤ 120 := by
  cases pidOut with
  | some d => exact hpid d rfl
  | none =>
    cases st with
    | running | lowFlow => exact hold
    | standbyHeat =>
      simp only [dutyRequest, Config.dutyMax, BitVec.toNat_ofNat]
      omega
    | _ => exact Nat.zero_le _

theorem opCtrl_modulatorInv (P : Params) {s : State} (h : ModulatorInv s.pm) : ModulatorInv (opCtrl P s).pm := by
  have hpid : ∀ d, (stateLogic P (beforeLogic P s)).2 = some d → d.toNat ≤ 120 := fun d hd => by
    obtain ⟨_, _, hle⟩ := stateLogic_pidOut P hd
    exact hle
  have hduty := dutyRequest_le P (stateLogic P (beforeLogic P s)).1.status h.duty hpid
  rw [opCtrl_pm, bookkeeping_pm]
  refine ⟨hduty, fun d hd => ?_, h.staged, h.mode, h.index, h.shortFrame, h.remainder, h.pins⟩
  dsimp only at hd
  split at hd
  · split at hd
    · cases hd
      exact h.staged
    · cases hd
  · exact h.forced d hd

/-- The event latch is in no range. -/
theorem ModulatorInv.setZcPending {m : ModulatorState} (h : ModulatorInv m) (b : Bool) :
    ModulatorInv { m with zcPending := b } :=
  ⟨h.duty, h.forced, h.staged, h.mode, h.index, h.shortFrame, h.remainder, h.pins⟩

theorem tickCrossing_modulatorInv (P : Params) {s : State} (h : ModulatorInv s.pm) :
    ModulatorInv (tickCrossing P s).pm := by
  unfold tickCrossing
  split
  · exact crossing_modulatorInv P (h.setZcPending false)
  · exact h

theorem answer_modulatorInv {i : Instr} {s : State} (hi : i ≠ .sreset) (h : ModulatorInv s.pm) :
    ModulatorInv (answer i s).pm := by
  have stay {t u : State} (e : t.silent = u.silent) (hu : ModulatorInv u.pm) : ModulatorInv t.pm := by
    rwa [pm_eq_of_silent e]
  cases i with
  | nop | fcount => exact h
  | sreset => exact absurd rfl hi
  | rdreg a => exact stay (opRdreg_silent _ a s) h
  | wrreg a v => exact stay (opWrreg_silent _ a v s) h
  | freport c => exact stay (opFreport_silent _ c s) h
  | fclear c => exact stay (opFclear_silent c s) h
  | fexists c => exact stay (opFexists_silent c s) h
  | thchk a => exact stay (opThchk_silent _ a s) h
  | zcedge => exact h.setZcPending true
  | xcross => exact crossing_modulatorInv _ h
  | setduty d => exact ⟨capDuty_le d, h.forced, h.staged, h.mode, h.index, h.shortFrame, h.remainder, h.pins⟩
  | setforce d => exact ⟨h.duty, h.forced, capDuty_le d, h.mode, h.index, h.shortFrame, h.remainder, h.pins⟩
  | clrforce => exact ⟨h.duty, h.forced, Nat.zero_le _, h.mode, h.index, h.shortFrame, h.remainder, h.pins⟩
  | ctrl => exact opCtrl_modulatorInv _ h
  | tick =>
    have hcross := tickCrossing_modulatorInv Config.params h
    by_cases h0 : s.ctrlCnt = 0
    · rw [answer_tick, (opTick_cycleFrom h0).pm]
      exact opCtrl_modulatorInv _ hcross
    · exact stay (opTick_silent_of_ne_zero _ h0) hcross

/-! ### The registry (rule R112) -/

theorem RegistryInv.report {P : Params} {fr : RegistryState} (h : RegistryInv P fr) {c : U8} (hc : c ≠ 0) :
    RegistryInv P (frReport P fr c).1 := by
  rcases frReport_cases P fr c with ⟨_, e⟩ | ⟨_, _, e⟩ | ⟨hno, hroom, e⟩ <;> rw [e]
  · exact h
  · exact ⟨h.nodup, h.bounded, h.nonzero⟩
  · refine ⟨?_, ?_, ?_⟩
    · exact List.nodup_append.mpr ⟨h.nodup, List.nodup_singleton c, by rintro a ha b hb rfl; simp_all⟩
    · have := h.bounded
      rw [List.length_append, List.length_singleton]
      omega
    · exact fun h0 => (List.mem_append.mp h0).elim h.nonzero fun hmem => hc (List.mem_singleton.mp hmem).symm

theorem RegistryInv.clear {P : Params} {fr : RegistryState} (h : RegistryInv P fr) (c : U8) :
    RegistryInv P (frClear fr c).1 := by
  rcases frClear_cases fr c with ⟨_, e⟩ | ⟨_, _, e⟩ <;> rw [e]
  · exact h
  · exact ⟨h.nodup.erase c, (List.length_erase_le ..).trans h.bounded,
      fun h0 => h.nonzero (List.mem_of_mem_erase h0)⟩

/-! ### The settings (rule R41) -/

/-- Only WRREG writes the settings. -/
theorem answer_set {i : Instr} {s : State} (hi : i ≠ .sreset) (hw : ∀ a v, i ≠ .wrreg a v) :
    (answer i s).set = s.set := by
  cases i with
  | nop | fcount | zcedge | xcross | setduty | setforce | clrforce => rfl
  | sreset => exact absurd rfl hi
  | wrreg a v => exact absurd rfl (hw a v)
  | rdreg a => exact (set_eq_of_silent (opRdreg_silent _ a s)).trans rfl
  | freport c => exact (set_eq_of_silent (opFreport_silent _ c s)).trans rfl
  | fclear c => exact (set_eq_of_silent (opFclear_silent c s)).trans rfl
  | fexists c => exact (set_eq_of_silent (opFexists_silent c s)).trans rfl
  | thchk a => exact (set_eq_of_silent (opThchk_silent _ a s)).trans rfl
  | ctrl => exact opCtrl_set _ s
  | tick =>
    by_cases h0 : s.ctrlCnt = 0
    · rw [answer_tick, (opTick_cycleFrom h0).set]
      exact opCtrl_set _ _
    · exact (set_eq_of_silent (opTick_silent_of_ne_zero _ h0)).trans rfl

/-- No register but MODE writes the mode. -/
theorem regWrite_mode_of_ne (s : State) {r : Reg} (v : Word) (h : r ≠ .mode) :
    (regWrite s r v).set.mode = s.set.mode := by
  cases r with
  | mode => exact absurd rfl h
  | _ => rfl

theorem answer_mode {i : Instr} {s : State} (hi : i ≠ .sreset) (h : s.set.mode.toNat < Config.params.nModes) :
    (answer i s).set.mode.toNat < Config.params.nModes := by
  by_cases hw : ∃ a v, i = .wrreg a v
  · obtain ⟨a, v, rfl⟩ := hw
    rcases opWrreg_cases Config.params a v s with ⟨_, e⟩ | ⟨r, _, _, hmode, _, e⟩ <;>
      rw [answer_wrreg, e]
    · exact h
    · rw [State.respond_set]
      by_cases hr : r = .mode
      · rw [hr]
        exact hmode hr
      · rwa [regWrite_mode_of_ne s v hr]
  · rwa [answer_set hi fun a v e => hw ⟨a, v, e⟩]

/-! ### The whole invariant -/

/-- The invariant reads four parts of the state. -/
theorem Invariant.of_eq {P : Params} {s t : State} (h : Invariant P s) (hpm : t.pm = s.pm) (hfr : t.fr = s.fr)
    (hrc : t.rc = s.rc) (hset : t.set = s.set) : Invariant P t := by
  obtain ⟨hmod, hreg, hrel, hint, hmode⟩ := h
  exact ⟨hpm ▸ hmod, hfr ▸ hreg, hrc ▸ hrel, hrc ▸ hint, hset ▸ hmode⟩

theorem Invariant.of_silent {P : Params} {s t : State} (h : Invariant P s) (e : t.silent = s.silent) :
    Invariant P t :=
  h.of_eq (pm_eq_of_silent e) (fr_eq_of_silent e) (rc_eq_of_silent e) (set_eq_of_silent e)

theorem invariant_resetWith (P : Params) : Invariant P (State.resetWith P) where
  modulator := ⟨Nat.zero_le _, (fun d h => nomatch (h : (none : Option U8) = some d)), Nat.zero_le _, Nat.zero_le _,
    Nat.zero_le _, fun _ => Nat.zero_le _, Nat.zero_le _, ⟨rfl, rfl⟩⟩
  registry := ⟨List.nodup_nil, Nat.zero_le _, List.not_mem_nil⟩
  relays := rfl
  integral := integralInRange_zero P
  mode := Nat.succ_pos _

/-- Relays and integral are written by a control cycle only. -/
theorem answer_relays_integral {i : Instr} {s : State} (hi : i ≠ .sreset) (hrel : RelaysFollowStatus s.rc)
    (hint : IntegralInRange Config.params s.rc.integral) :
    RelaysFollowStatus (answer i s).rc ∧ IntegralInRange Config.params (answer i s).rc.integral := by
  by_cases h : RunsCycle i s
  · obtain ⟨m, _, hcycle⟩ := answer_of_cycle h
    rw [hcycle.rc]
    exact ⟨opCtrl_relays _ _, opCtrl_integralInRange _ (s := { s with pm := m }) hint⟩
  · obtain ⟨hrc, _⟩ := answer_rc_det_of_no_cycle hi h
    rw [hrc]
    exact ⟨hrel, hint⟩

theorem answer_invariant {i : Instr} {s : State} (hi : i ≠ .sreset) (h : Invariant Config.params s) :
    Invariant Config.params (answer i s) := by
  obtain ⟨hmod, hreg, hrel, hint, hmode⟩ := h
  obtain ⟨hrel', hint'⟩ := answer_relays_integral hi hrel hint
  exact ⟨answer_modulatorInv hi hmod,
    answer_fr_induction hi hreg (fun _ _ hc hfr => hfr.report hc) (fun _ c hfr => hfr.clear c),
    hrel', hint', answer_mode hi hmode⟩

/-- Settles O52: the reset state of every parameter set has it. -/
theorem resetMeetsTheInvariant : Obligations.ResetMeetsTheInvariant := invariant_resetWith Config.params

/-- Settles O53: a step resets, changes no element, or runs one operation, and each of the three leaves the invariant. -/
theorem stepKeepsTheInvariant : Obligations.StepKeepsTheInvariant := by
  intro s t h hstep
  have htaken : Invariant Config.params s.takeEvent := h.of_eq rfl rfl rfl rfl
  by_cases hr : TakesReset s
  · exact ((invariant_resetWith _).of_eq (t := s.takeEvent.toReset Config.params) rfl rfl rfl rfl).of_silent
      (step_of_takesReset hstep hr)
  · rcases step_cases hstep hr with e | ⟨i, hi, e⟩
    · exact htaken.of_silent e
    · exact (answer_invariant hi htaken).of_silent e

end Sys2Proof.Machine

/-! SUPPORT. The phase modulator, continued (`42_modulator.md` rules R130, R136 to R138, R140 and R141): the commands that
stage a duty, the balance of duty and remainder over permitted frames, and the duty property of the reference table; and
the reset values (`10_state.md` rule R55). -/

namespace Sys2Proof.Machine

/-! ### The commands and the reset state -/

theorem capDuty_setWidth (d : U8) :
    (capDuty d).setWidth 32 = if d.toNat ≤ 120 then d.setWidth 32 else (120 : Word) := by
  rw [capDuty_eq, apply_ite (BitVec.setWidth 32)]
  rfl

/-- Settles O26: the arms of the four commands, with the cap on the operand. -/
theorem modulatorCommands : Obligations.ModulatorCommands := by
  intro s
  refine ⟨rfl, fun d => ?_, fun d => ?_, rfl⟩
  · rw [exec_eq_answer, answer_setduty, capDuty_setWidth, capDuty_eq]
    rfl
  · rw [exec_eq_answer, answer_setforce, capDuty_setWidth, capDuty_eq]
    rfl

/-- Settles O19: the reset state is this literal. -/
theorem resetValues : Obligations.ResetValues := rfl

/-! ### The duty property of the reference table (rule R141) -/

/-- Row `m` of the reference table has `m` ON slots in a short frame, and one more from row 5 on in a long one. -/
theorem onSlots_refPattern : ∀ m ≤ 8,
    onSlots refPattern m 8 = m ∧ onSlots refPattern m 9 = if 5 ≤ m then m + 1 else m := by decide

/-- Settles O31: the two rows are the quotients of the carry; where the row of the long frame is below 5, from duty 68 on
the other row is not. -/
theorem refPatternMeetsTheDutyProperty : Obligations.RefPatternMeetsTheDutyProperty := by
  intro d hd r hr ph
  obtain ⟨hshort, hlong⟩ := onSlots_refPattern ((d + r) / 15) (by omega)
  obtain ⟨hshort', hlong'⟩ := onSlots_refPattern ((d + (d + r) % 15) / 15) (by omega)
  cases ph <;> simp only [frameLength, Bool.not_true, Bool.not_false, Bool.false_eq_true, if_true, if_false]
  · rw [hlong, hshort']
    split
    case isTrue => omega
    case isFalse =>
      have hrows : d < 68 ∨ 5 ≤ (d + (d + r) % 15) / 15 := by omega
      omega
  · rw [hshort, hlong']
    split
    case isTrue => omega
    case isFalse =>
      have hrows : d < 68 ∨ 5 ≤ (d + r) / 15 := by omega
      omega

/-! ### One permitted frame (rules R133, R134, R140) -/

/-- A permitted state at the start of a frame, the modulator in its ranges. -/
structure FrameStart (s : State) : Prop where
  permitted : permit s = true
  index : s.pm.crossingIndex = 0
  ranges : ModulatorInv s.pm

/-- Within a frame the remainder and the duty in force are those of its start as well. -/
structure InFrame (s : State) (k : Nat) (t : State) : Prop extends AtCrossing s k t where
  remainder : t.pm.remainder = s.pm.remainder
  duty : dutyInForce t.pm = dutyInForce s.pm
  ranges : ModulatorInv t.pm

theorem FrameStart.inFrame {s : State} (h : FrameStart s) : InFrame s 0 s :=
  ⟨⟨h.permitted, congrArg BitVec.toNat h.index, rfl, rfl⟩, rfl, rfl, h.ranges⟩

/-- A permitted crossing leaves the duty in force. -/
theorem dutyInForce_permittedPath (P : Params) (m : ModulatorState) :
    dutyInForce (permittedPath P m) = dutyInForce m := by
  obtain ⟨hduty, hforced, _⟩ := permittedPath_frame P m
  rw [dutyInForce, hduty, hforced, dutyInForce]

theorem pm_of_exec_xcross {t u : State} (hp : permit t = true) (h : exec .xcross t = .next u) :
    u.pm = permittedPath Config.params t.pm := by
  rw [exec_xcross_of_permit hp] at h
  cases h
  rfl

theorem InFrame.next {s t : State} {k : Nat} (h : InFrame s k t) (hk : k + 1 < frameLength s.pm.offsetPhase) :
    ∃ u, exec .xcross t = .next u ∧ InFrame s (k + 1) u := by
  obtain ⟨u, hu, hat⟩ := h.toAtCrossing.next hk
  have hpm := pm_of_exec_xcross h.permitted hu
  have hlast := completingIndex_toNat_add_one s.pm.offsetPhase
  obtain ⟨_, _, _, hrest⟩ := permittedPath_of_not_completes Config.params (m := t.pm)
    (by rw [h.index, h.phase]; omega)
  refine ⟨u, hu, hat, ?_, ?_, ?_⟩
  · rw [hpm, hrest, h.remainder]
  · rw [hpm, dutyInForce_permittedPath, h.duty]
  · rw [hpm]
    exact permittedPath_modulatorInv _ h.ranges

theorem repeatOp_xcross_inFrame {s : State} (h : FrameStart s) :
    ∀ {k : Nat}, k < frameLength s.pm.offsetPhase → ∃ t, repeatOp .xcross k s = .next t ∧ InFrame s k t
  | 0, _ => ⟨s, rfl, h.inFrame⟩
  | k + 1, hk => by
    obtain ⟨t, ht, hin⟩ := repeatOp_xcross_inFrame h (Nat.lt_of_succ_lt hk)
    obtain ⟨u, hu, hnext⟩ := hin.next hk
    exact ⟨u, (repeatOp_succ ht).trans hu, hnext⟩

/-- What one permitted frame makes of the modulator: the duty in force is the same, and it and the remainder before are
fifteen times the new mode and the remainder after. -/
structure FrameBalance (s t : State) : Prop where
  duty : dutyInForce t.pm = dutyInForce s.pm
  balance :
    15 * t.pm.powerMode.toNat + t.pm.remainder.toNat = (dutyInForce s.pm).toNat + s.pm.remainder.toNat

/-- The last crossing of a frame quantises: nothing is cut off, since the sum is at most 134. -/
theorem repeatOp_xcross_frame {s : State} (h : FrameStart s) :
    ∃ t, repeatOp .xcross (frameLength s.pm.offsetPhase) s = .next t ∧ FrameStart t ∧ FrameBalance s t := by
  have hlast := completingIndex_toNat_add_one s.pm.offsetPhase
  obtain ⟨t, ht, hend⟩ := repeatOp_xcross_inFrame h (Nat.lt_of_succ_le hlast.le)
  obtain ⟨hi, _, hm, hr⟩ := permittedPath_of_completes Config.params (m := t.pm) (by rw [hend.index, hend.phase])
  have hd := dutyInForce_le hend.ranges
  have hrem := hend.ranges.remainder
  obtain ⟨hmode, hrest⟩ := quantise_toNat t.pm hd hrem
  rw [← hlast]
  refine ⟨_, (repeatOp_succ ht).trans (exec_xcross_of_permit hend.permitted), ⟨hend.permitted, hi, ?_⟩, ?_, ?_⟩
  · exact permittedPath_modulatorInv _ hend.ranges
  · exact (dutyInForce_permittedPath _ _).trans hend.duty
  · rw [← hend.duty, ← hend.remainder]
    dsimp only
    rw [hm, hr, hmode, hrest]
    omega

/-! ### Any number of permitted frames (rule R140) -/

/-- The state one frame later. -/
def nextFrame (s : State) : State := (answer .xcross)^[frameLength s.pm.offsetPhase] s

theorem repeatOp_eq_iterate (i : Instr) (n : Nat) (s : State) : repeatOp i n s = .next ((answer i)^[n] s) := by
  induction n with
  | zero => rfl
  | succ n ih => rw [repeatOp_succ ih, exec_eq_answer, Function.iterate_succ_apply']

theorem repeatOp_nextFrame (s : State) :
    repeatOp .xcross (frameLength s.pm.offsetPhase) s = .next (nextFrame s) := repeatOp_eq_iterate ..

theorem FrameStart.next {s : State} (h : FrameStart s) : FrameStart (nextFrame s) ∧ FrameBalance s (nextFrame s) := by
  obtain ⟨t, ht, hstart, hbal⟩ := repeatOp_xcross_frame h
  rw [repeatOp_nextFrame] at ht
  cases ht
  exact ⟨hstart, hbal⟩

/-- The balances of the single frames add up. -/
theorem frames_balance {s : State} (h : FrameStart s) (k : Nat) :
    FrameStart (nextFrame^[k] s) ∧ dutyInForce (nextFrame^[k] s).pm = dutyInForce s.pm ∧
      15 * ((List.range k).map fun j => (nextFrame^[j + 1] s).pm.powerMode.toNat).sum +
          (nextFrame^[k] s).pm.remainder.toNat =
        k * (dutyInForce s.pm).toNat + s.pm.remainder.toNat := by
  induction k with
  | zero => exact ⟨h, rfl, by simp⟩
  | succ k ih =>
    obtain ⟨hstart, hduty, hsum⟩ := ih
    obtain ⟨hnext, hduty', hbal⟩ := hstart.next
    have hsucc : nextFrame^[k + 1] s = nextFrame (nextFrame^[k] s) := Function.iterate_succ_apply' ..
    rw [← hsucc] at hnext hduty' hbal
    refine ⟨hnext, hduty'.trans hduty, ?_⟩
    rw [List.range_succ, List.map_append, List.sum_append, List.map_singleton, List.sum_singleton, Nat.add_mul, Nat.one_mul]
    rw [hduty] at hbal
    omega

/-- Settles O30: the frames are the iterates of the machine's own crossings. -/
theorem remainderCarryLosesNoDuty : Obligations.RemainderCarryLosesNoDuty := by
  intro k s hfaults hheats hindex hranges
  have hstart : FrameStart s := ⟨(permit_iff s).mpr ⟨hfaults, hheats⟩, hindex, hranges⟩
  obtain ⟨_, _, hsum⟩ := frames_balance hstart k
  refine ⟨fun j => nextFrame^[j] s, rfl, fun j _ => ?_, hsum⟩
  exact (repeatOp_nextFrame _).trans (congrArg _ (Function.iterate_succ_apply' ..).symm)

end Sys2Proof.Machine

/-! SUPPORT. What no rule reads (`10_state.md` rule R42, `70_reset_and_hazards.md` rule R268): UNITS and
`previous_status` may be hidden before an operation instead of after it, so two states that agree but for one of them
lead to two such states. -/

namespace Sys2Proof.Machine

/-! ### Hiding an element -/

/-- The two elements that nothing but their own register shows. -/
inductive Hidden where
  | units
  | previousStatus

/-- The address of the register that shows it. -/
def Hidden.addr : Hidden → U8
  | .units => 0x12
  | .previousStatus => 0x00

def Hidden.settings : Hidden → Settings → Settings
  | .units, x => { x with units := false }
  | .previousStatus, x => x

def Hidden.relay : Hidden → RelayState → RelayState
  | .units, r => r
  | .previousStatus, r => { r with previousStatus := .initial }

/-- The state with the element at a fixed value. -/
def State.hide (h : Hidden) (s : State) : State := { s with rc := h.relay s.rc, set := h.settings s.set }

section
variable (h : Hidden) (s : State) (r : RelayState) (x : Settings)

@[simp] theorem State.hide_pm : (s.hide h).pm = s.pm := rfl

@[simp] theorem State.hide_rc : (s.hide h).rc = h.relay s.rc := rfl

@[simp] theorem State.hide_fr : (s.hide h).fr = s.fr := rfl

@[simp] theorem State.hide_ctrlCnt : (s.hide h).ctrlCnt = s.ctrlCnt := rfl

@[simp] theorem State.hide_inp : (s.hide h).inp = s.inp := rfl

@[simp] theorem Hidden.relay_status : (h.relay r).status = r.status := by cases h <;> rfl

@[simp] theorem Hidden.relay_shutdownFlag : (h.relay r).shutdownFlag = r.shutdownFlag := by cases h <;> rfl

@[simp] theorem Hidden.relay_shutdownCounter : (h.relay r).shutdownCounter = r.shutdownCounter := by cases h <;> rfl

@[simp] theorem Hidden.relay_errorWaitCounter : (h.relay r).errorWaitCounter = r.errorWaitCounter := by
  cases h <;> rfl

@[simp] theorem Hidden.relay_dryFireWaitTimer : (h.relay r).dryFireWaitTimer = r.dryFireWaitTimer := by
  cases h <;> rfl

@[simp] theorem Hidden.relay_tempWaitTimer : (h.relay r).tempWaitTimer = r.tempWaitTimer := by cases h <;> rfl

@[simp] theorem Hidden.relay_relay : h.relay (h.relay r) = h.relay r := by cases h <;> rfl

@[simp] theorem Hidden.settings_settings : h.settings (h.settings x) = h.settings x := by cases h <;> rfl

@[simp] theorem State.hide_hide : (s.hide h).hide h = s.hide h := by cases h <;> rfl

end

/-- Hiding keeps what the hidden element is not. -/
theorem Hidden.status_eq {h : Hidden} {r q : RelayState} (e : h.relay r = h.relay q) : r.status = q.status := by
  rw [← h.relay_status r, e, h.relay_status]

/-- Two states that agree in everything but the hidden element. -/
theorem State.hide_ext {h : Hidden} {s t : State} (hpm : s.pm = t.pm) (hrc : h.relay s.rc = h.relay t.rc)
    (hset : h.settings s.set = h.settings t.set)
    (hrest : (s.det, s.th, s.fr, s.ctrlCnt, s.inp, s.rsp, s.pins) =
      (t.det, t.th, t.fr, t.ctrlCnt, t.inp, t.rsp, t.pins)) :
    s.hide h = t.hide h := by
  simp only [Prod.mk.injEq] at hrest
  simp [State.hide, hpm, hrc, hset, hrest]

/-! ### The state change and the conditions of a cycle -/

/-- `enter` saves the status it leaves and reads no saved one (rule R160). -/
theorem enter_relay_congr {P : Params} {h : Hidden} {st : Status} {r q : RelayState} (e : h.relay r = h.relay q) :
    h.relay (enter P st r) = h.relay (enter P st q) := by
  have one (r : RelayState) : h.relay (enter P st (h.relay r)) = h.relay (enter P st r) := by
    cases h with
    | units => rfl
    | previousStatus =>
      by_cases hst : st = r.status
      · subst hst
        have hsame := enter_self P (Hidden.previousStatus.relay r)
        rw [Hidden.relay_status] at hsame
        rw [enter_self, hsame, Hidden.relay_relay]
      · rw [enter_of_ne P hst, enter_of_ne P (by simpa using hst)]
        rfl
  rw [← one r, e, one q]

theorem wantStandby_hide (P : Params) (h : Hidden) (s : State) : wantStandby P (s.hide h) = wantStandby P s := by
  cases h <;> rfl

theorem overCeiling_hide (P : Params) (h : Hidden) (s : State) : overCeiling P (s.hide h) = overCeiling P s := by
  cases h <;> rfl

theorem pidStep_hide (P : Params) (h : Hidden) (s : State) :
    h.relay (pidStep P (s.hide h)).1 = h.relay (pidStep P s).1 ∧ (pidStep P (s.hide h)).2 = (pidStep P s).2 := by
  have hv : valid (s.hide h) .outlet = valid s .outlet := rfl
  unfold pidStep
  rw [hv]
  cases h <;> split <;> exact ⟨rfl, rfl⟩

/-! ### The logic of one state (rules R162 to R171) -/

section
variable (P : Params) (h : Hidden) (s : State)

theorem relay_hide_rc : h.relay (s.hide h).rc = h.relay s.rc := h.relay_relay s.rc

/-- Writing another element of the relay state and hiding do not disturb each other. -/
theorem relay_update_congr :
    (∀ t, h.relay { h.relay s.rc with shutdownCounter := t } = h.relay { s.rc with shutdownCounter := t }) ∧
    (∀ t, h.relay { h.relay s.rc with errorWaitCounter := t } = h.relay { s.rc with errorWaitCounter := t }) ∧
    (∀ t, h.relay { h.relay s.rc with dryFireWaitTimer := t } = h.relay { s.rc with dryFireWaitTimer := t }) ∧
    (∀ t, h.relay { h.relay s.rc with tempWaitTimer := t } = h.relay { s.rc with tempWaitTimer := t }) := by
  cases h <;> exact ⟨fun _ => rfl, fun _ => rfl, fun _ => rfl, fun _ => rfl⟩

theorem enterByFlow_hide {r q : RelayState} (e : h.relay r = h.relay q) :
    h.relay (enterByFlow P (s.hide h) r) = h.relay (enterByFlow P s q) := enter_relay_congr e

theorem enterOnFlow_hide {r q : RelayState} (e : h.relay r = h.relay q) :
    h.relay (enterOnFlow P r) = h.relay (enterOnFlow P q) := by
  have ht : r.dryFireWaitTimer = q.dryFireWaitTimer := by
    rw [← h.relay_dryFireWaitTimer r, e, h.relay_dryFireWaitTimer]
  rw [enterOnFlow, enterOnFlow, ht]
  exact enter_relay_congr e

theorem logicInitial_hide : h.relay (logicInitial P (s.hide h)) = h.relay (logicInitial P s) := by
  have hrc := relay_hide_rc h s
  unfold logicInitial
  rw [State.hide_inp]
  cases s.inp.flowPresent
  case true => exact enterOnFlow_hide P h hrc
  case false => exact enter_relay_congr hrc

theorem logicRunning_hide :
    h.relay (logicRunning P (s.hide h)).1 = h.relay (logicRunning P s).1 ∧
      (logicRunning P (s.hide h)).2 = (logicRunning P s).2 := by
  have hrc := relay_hide_rc h s
  obtain ⟨hpid, hout⟩ := pidStep_hide P h s
  simp only [logicRunning, State.hide_inp, hout]
  rw [show (s.hide h).rc.shutdownFlag = s.rc.shutdownFlag from h.relay_shutdownFlag s.rc]
  split
  · exact ⟨enter_relay_congr hrc, rfl⟩
  · split
    · exact ⟨enter_relay_congr hrc, rfl⟩
    · exact ⟨hpid, rfl⟩

theorem logicLowFlow_hide :
    h.relay (logicLowFlow P (s.hide h)).1 = h.relay (logicLowFlow P s).1 ∧
      (logicLowFlow P (s.hide h)).2 = (logicLowFlow P s).2 := by
  have hrc := relay_hide_rc h s
  obtain ⟨hpid, hout⟩ := pidStep_hide P h s
  simp only [logicLowFlow, State.hide_inp, hout]
  rw [show (s.hide h).rc.shutdownFlag = s.rc.shutdownFlag from h.relay_shutdownFlag s.rc]
  split
  · exact ⟨enter_relay_congr hrc, rfl⟩
  · split
    · exact ⟨enter_relay_congr hrc, rfl⟩
    · exact ⟨hpid, rfl⟩

theorem logicShutdown_hide : h.relay (logicShutdown P (s.hide h)) = h.relay (logicShutdown P s) := by
  obtain ⟨hupdate, _, _, _⟩ := relay_update_congr h s
  simp only [logicShutdown, State.hide_inp, State.hide_rc, wantStandby_hide, Hidden.relay_shutdownCounter]
  split
  · split
    · exact enterByFlow_hide P h s (hupdate _)
    · split
      · exact enter_relay_congr (hupdate _)
      · exact enter_relay_congr (hupdate _)
  · exact hupdate _

theorem logicStandbyCool_hide : h.relay (logicStandbyCool P (s.hide h)) = h.relay (logicStandbyCool P s) := by
  have hrc := relay_hide_rc h s
  simp only [logicStandbyCool, State.hide_inp, wantStandby_hide]
  split
  · exact enterOnFlow_hide P h hrc
  · split
    · exact enter_relay_congr hrc
    · exact hrc

theorem logicStandbyHeat_hide : h.relay (logicStandbyHeat P (s.hide h)) = h.relay (logicStandbyHeat P s) := by
  have hrc := relay_hide_rc h s
  simp only [logicStandbyHeat, State.hide_inp, wantStandby_hide]
  split
  · exact enterByFlow_hide P h s hrc
  · split
    · exact enter_relay_congr hrc
    · exact hrc

theorem leaveError_hide : h.relay (leaveError P s.fr (s.hide h).rc) = h.relay (leaveError P s.fr s.rc) := by
  have hrc := relay_hide_rc h s
  unfold leaveError
  split
  · exact hrc
  · exact enter_relay_congr hrc

theorem leaveErrorWait_hide : h.relay (leaveErrorWait P (s.hide h).rc) = h.relay (leaveErrorWait P s.rc) := by
  obtain ⟨_, hupdate, _, _⟩ := relay_update_congr h s
  simp only [leaveErrorWait, State.hide_rc, Hidden.relay_errorWaitCounter]
  split
  · exact enter_relay_congr (hupdate _)
  · exact hupdate _

theorem logicDryFireWait_hide : h.relay (logicDryFireWait P (s.hide h)) = h.relay (logicDryFireWait P s) := by
  obtain ⟨_, _, hupdate, _⟩ := relay_update_congr h s
  simp only [logicDryFireWait, State.hide_inp, State.hide_rc, Hidden.relay_dryFireWaitTimer]
  split
  · exact enter_relay_congr (relay_hide_rc h s)
  · split
    · exact enterByFlow_hide P h s (hupdate _)
    · exact hupdate _

theorem logicTempWait_hide : h.relay (logicTempWait P (s.hide h)) = h.relay (logicTempWait P s) := by
  obtain ⟨_, _, _, hupdate⟩ := relay_update_congr h s
  simp only [logicTempWait, State.hide_rc, overCeiling_hide, Hidden.relay_tempWaitTimer]
  split
  · split
    · exact hupdate _
    · exact enter_relay_congr (hupdate _)
  · exact hupdate _

theorem stateLogic_hide :
    h.relay (stateLogic P (s.hide h)).1 = h.relay (stateLogic P s).1 ∧
      (stateLogic P (s.hide h)).2 = (stateLogic P s).2 := by
  have hs : (s.hide h).rc.status = s.rc.status := h.relay_status s.rc
  simp only [stateLogic, hs]
  cases s.rc.status
  case initial => exact ⟨logicInitial_hide P h s, rfl⟩
  case running => exact logicRunning_hide P h s
  case shutdown => exact ⟨logicShutdown_hide P h s, rfl⟩
  case standbyCool => exact ⟨logicStandbyCool_hide P h s, rfl⟩
  case standbyHeat => exact ⟨logicStandbyHeat_hide P h s, rfl⟩
  case lowFlow => exact logicLowFlow_hide P h s
  case error => exact ⟨leaveError_hide P h s, rfl⟩
  case errorWait => exact ⟨leaveErrorWait_hide P h s, rfl⟩
  case dryFireWait => exact ⟨logicDryFireWait_hide P h s, rfl⟩
  case tempWait => exact ⟨logicTempWait_hide P h s, rfl⟩

/-! ### The control cycle, step by step (rule R150) -/

theorem detectChambers_hide : detectChambers P (s.hide h) = (detectChambers P s).hide h := by
  rw [detectChambers, detectChambers, apply_ite (State.hide h)]
  rfl

theorem detectShutdown_hide : detectShutdown P (s.hide h) = (detectShutdown P s).hide h := by cases h <;> rfl

theorem detectors_hide : detectors P (s.hide h) = (detectors P s).hide h := by
  have hbook : bookkeeping (s.hide h) = (bookkeeping s).hide h := rfl
  have hdry (t : State) : detectDryFire P (t.hide h) = (detectDryFire P t).hide h := rfl
  have hscale (t : State) : detectScale P (t.hide h) = (detectScale P t).hide h := rfl
  rw [detectors, hbook, detectChambers_hide, hdry, detectShutdown_hide, hscale, detectors]

/-- A new relay state in place of the old one. -/
theorem hide_with_rc {r q : RelayState} (e : h.relay r = h.relay q) :
    ({ s.hide h with rc := r } : State).hide h = ({ s with rc := q } : State).hide h :=
  State.hide_ext rfl e (h.settings_settings _) rfl

theorem dryFireTransition_hide :
    (dryFireTransition P (s.hide h)).hide h = (dryFireTransition P s).hide h := by
  obtain ⟨_, _, hupdate, _⟩ := relay_update_congr h s
  have hs : (s.hide h).rc.status = s.rc.status := h.relay_status s.rc
  have hdry : dryFire P (s.hide h) = dryFire P s := rfl
  unfold dryFireTransition
  rw [hs, hdry]
  split
  · exact hide_with_rc h s (enter_relay_congr (hupdate _))
  · exact s.hide_hide h

theorem faultOverride_hide : (faultOverride P (s.hide h)).hide h = (faultOverride P s).hide h := by
  unfold faultOverride
  rw [State.hide_fr]
  split
  · exact hide_with_rc h s (enter_relay_congr (relay_hide_rc h s))
  · exact s.hide_hide h

theorem ceilingOverride_hide : (ceilingOverride P (s.hide h)).hide h = (ceilingOverride P s).hide h := by
  have hs : (s.hide h).rc.status = s.rc.status := h.relay_status s.rc
  unfold ceilingOverride
  rw [State.hide_fr, hs, overCeiling_hide]
  split
  · exact hide_with_rc h s (enter_relay_congr (relay_hide_rc h s))
  · exact s.hide_hide h

theorem recordHistory_hide : recordHistory (s.hide h) = (recordHistory s).hide h := rfl

end

/-- A step that may run on the state with the element hidden may run on every state that differs in it. -/
theorem hide_congr {h : Hidden} {F : State → State} (hF : ∀ s, (F (s.hide h)).hide h = (F s).hide h) {s t : State}
    (e : s.hide h = t.hide h) : (F s).hide h = (F t).hide h := by
  rw [← hF s, e, hF t]

theorem overrides_hide (P : Params) (h : Hidden) (s : State) :
    (overrides P (s.hide h)).hide h = (overrides P s).hide h :=
  hide_congr (ceilingOverride_hide P h) (hide_congr (faultOverride_hide P h) (dryFireTransition_hide P h s))

/-- The relay outputs and the hidden element do not disturb each other. -/
theorem relay_outputs_congr {h : Hidden} {r q : RelayState} (e : h.relay r = h.relay q) (a b : Bool) :
    h.relay { r with relay0 := a, relay1 := b } = h.relay { q with relay0 := a, relay1 := b } := by
  have outputs (r : RelayState) :
      h.relay { r with relay0 := a, relay1 := b } = { h.relay r with relay0 := a, relay1 := b } := by cases h <;> rfl
  rw [outputs, outputs, e]

theorem logicAndOutputs_hide (P : Params) (h : Hidden) (s : State) :
    (logicAndOutputs P (s.hide h)).hide h = (logicAndOutputs P s).hide h := by
  obtain ⟨hrc, hout⟩ := stateLogic_hide P h s
  have hstatus := Hidden.status_eq hrc
  have hsel : (stateLogic P (s.hide h)).1.lowflowSel = (stateLogic P s).1.lowflowSel := by
    have hread (r : RelayState) : (h.relay r).lowflowSel = r.lowflowSel := by cases h <;> rfl
    rw [← hread, hrc, hread]
  refine State.hide_ext ?pm ?rc (h.settings_settings _) rfl
  case pm => rw [logicAndOutputs_pm, logicAndOutputs_pm, hstatus, hout, State.hide_pm]
  case rc => 
    rw [logicAndOutputs_rc, logicAndOutputs_rc, hstatus, hsel]
    exact relay_outputs_congr hrc _ _

theorem controlCycle_hide (P : Params) (h : Hidden) (s : State) :
    (controlCycle P (s.hide h)).hide h = (controlCycle P s).hide h := by
  rw [controlCycle, detectors_hide]
  have hlogic := hide_congr (logicAndOutputs_hide P h) (overrides_hide P h (detectors P s))
  exact hide_congr (fun t => by rw [recordHistory_hide, State.hide_hide]) hlogic

/-! ### The operations -/

/-- A response that does not depend on the element. -/
theorem respond_hide {h : Hidden} {s t : State} (e : s.hide h = t.hide h) (v : Word) :
    (s.respond v).hide h = (t.respond v).hide h :=
  calc
    (s.respond v).hide h = (s.hide h).respond v := rfl
    _ = (t.hide h).respond v := by rw [e]
    _ = (t.respond v).hide h := rfl

theorem opCtrl_hide (P : Params) (h : Hidden) (s : State) : (opCtrl P (s.hide h)).hide h = (opCtrl P s).hide h := by
  have hcycle := controlCycle_hide P h s
  have hstatus : (controlCycle P (s.hide h)).rc.status = (controlCycle P s).rc.status :=
    Hidden.status_eq (congrArg State.rc hcycle)
  rw [opCtrl, hstatus]
  exact respond_hide hcycle _

theorem crossing_hide (P : Params) (h : Hidden) (s : State) : crossing P (s.hide h) = (crossing P s).hide h := by
  cases h <;> rfl

theorem tickCrossing_hide (P : Params) (h : Hidden) (s : State) :
    tickCrossing P (s.hide h) = (tickCrossing P s).hide h := by
  rw [tickCrossing, tickCrossing, apply_ite (State.hide h), ← crossing_hide]
  rfl

theorem tickControl_hide (P : Params) (h : Hidden) (s : State) :
    (tickControl P (s.hide h)).hide h = (tickControl P s).hide h := by
  unfold tickControl
  rw [State.hide_ctrlCnt]
  split
  · exact congrArg (fun t : State => { t with ctrlCnt := BitVec.ofNat 16 (P.ctrlPeriod - 1) })
      (controlCycle_hide P h s)
  · exact congrArg (fun t : State => { t with ctrlCnt := s.ctrlCnt - 1 }) (s.hide_hide h)

theorem opTick_hide (P : Params) (h : Hidden) (s : State) : (opTick P (s.hide h)).hide h = (opTick P s).hide h := by
  refine respond_hide ?_ 0
  rw [tickCrossing_hide]
  exact tickControl_hide P h _

/-- No register but the one that shows it reads the element. -/
theorem regRead_hide {h : Hidden} {r : Reg} (hr : r.addr ≠ h.addr.toNat) (s : State) :
    regRead (s.hide h) r = regRead s r := by
  cases h with
  | units => cases r with | units => exact absurd rfl hr | _ => rfl
  | previousStatus => cases r with | status => exact absurd rfl hr | _ => rfl

theorem regWrite_hide (h : Hidden) (s : State) (r : Reg) (v : Word) :
    (regWrite (s.hide h) r v).hide h = (regWrite s r v).hide h := by
  cases h <;> cases r <;> rfl

theorem opRdreg_hide (P : Params) {h : Hidden} {a : U8} (ha : a ≠ h.addr) (s : State) :
    (opRdreg P a (s.hide h)).hide h = (opRdreg P a s).hide h := by
  have hs := s.hide_hide h
  unfold opRdreg
  split
  · exact congrArg State.refuse hs
  case h_2 r hr =>
    have hne : r.addr ≠ h.addr.toNat := fun e => ha (BitVec.eq_of_toNat_eq ((Reg.addr_of_ofAddr hr).symm.trans e))
    rw [regRead_hide hne]
    exact respond_hide hs _

theorem opWrreg_hide (P : Params) (h : Hidden) (a : U8) (v : Word) (s : State) :
    (opWrreg P a v (s.hide h)).hide h = (opWrreg P a v s).hide h := by
  have hs := s.hide_hide h
  unfold opWrreg
  split
  · exact congrArg State.refuse hs
  · split
    · exact congrArg State.refuse hs
    · split
      · exact congrArg State.refuse hs
      · exact respond_hide (regWrite_hide h s _ v) 0

/-- Every operation but the read of its register. -/
theorem answer_hide {h : Hidden} {i : Instr} (hi : i ≠ .rdreg h.addr) (s : State) :
    (answer i (s.hide h)).hide h = (answer i s).hide h := by
  have hs := s.hide_hide h
  cases i with
  | nop => exact respond_hide hs _
  | fcount => exact respond_hide hs _
  | sreset => rfl
  | rdreg a => exact opRdreg_hide _ (fun e => hi (congrArg Instr.rdreg e)) s
  | wrreg a v => exact opWrreg_hide _ h a v s
  | freport c =>
    rw [answer_freport, answer_freport, opFreport, opFreport]
    split
    · exact congrArg State.refuse hs
    · exact congrArg (fun t : State => { t with fr := (frReport Config.params s.fr c).1 }.respond
        (frReport Config.params s.fr c).2) hs
  | fclear c =>
    rw [answer_fclear, answer_fclear, opFclear, opFclear]
    split
    · exact congrArg State.refuse hs
    · exact congrArg (fun t : State => { t with fr := (frClear s.fr c).1 }.respond (frClear s.fr c).2) hs
  | fexists c =>
    rw [answer_fexists, answer_fexists, opFexists, opFexists]
    split
    · exact congrArg State.refuse hs
    · exact respond_hide hs _
  | thchk a =>
    rw [answer_thchk, answer_thchk, opThchk, opThchk]
    split
    · exact congrArg State.refuse hs
    · rename_i ch _
      let u := thermistorCheck Config.params ch s
      exact congrArg (fun t : State => { t with th := u.th, fr := u.fr }.respond (thermistorAnswer (u.th.get ch))) hs
  | zcedge => exact congrArg (fun t : State => { t with pm := { s.pm with zcPending := true } }.respond 0) hs
  | xcross =>
    rw [answer_xcross, answer_xcross, opXcross, opXcross, crossing_hide]
    exact respond_hide (State.hide_hide h _) _
  | setduty d =>
    exact congrArg (fun t : State => { t with pm := { s.pm with dutyReq := capDuty d } }.respond
      ((capDuty d).setWidth 32)) hs
  | setforce d =>
    exact congrArg (fun t : State =>
      { t with pm := { s.pm with fcPending := true, fcEn := true, fcVal := capDuty d } }.respond
        ((capDuty d).setWidth 32)) hs
  | clrforce =>
    exact congrArg (fun t : State =>
      { t with pm := { s.pm with fcPending := true, fcEn := false, fcVal := 0 } }.respond 0) hs
  | ctrl => exact opCtrl_hide _ h s
  | tick => exact opTick_hide _ h s

/-! ### Steps -/

/-- A step from the state with the element hidden leads to the same state up to that element. -/
theorem step_hide {h : Hidden} {s : State} (hread : nextEvent s.pins ≠ .command (encode (.rdreg h.addr))) :
    ∃ t t', step s = .next t ∧ step (s.hide h) = .next t' ∧ t'.hide h = t.hide h := by
  have hpins : step (s.hide h) = runEvent (nextEvent s.pins) (s.takeEvent.hide h) := rfl
  have hs := s.takeEvent.hide_hide h
  have silent {t u : State} (e : t.hide h = u.hide h) : t.silent.hide h = u.silent.hide h := congrArg State.silent e
  rw [hpins, step]
  cases he : nextEvent s.pins with
  | reset => exact ⟨_, _, rfl, rfl, rfl⟩
  | crossing =>
    rw [runEvent, runEvent, exec_eq_answer, exec_eq_answer]
    exact ⟨_, _, rfl, rfl, silent (answer_hide (i := .zcedge) nofun _)⟩
  | tick =>
    rw [runEvent, runEvent, exec_eq_answer, exec_eq_answer]
    exact ⟨_, _, rfl, rfl, silent (answer_hide (i := .tick) nofun _)⟩
  | idle => exact ⟨_, _, rfl, rfl, silent hs⟩
  | command w =>
    rw [runEvent, runEvent]
    cases hd : decode w with
    | error e =>
      exact ⟨_, _, runCommand_of_error hd _, runCommand_of_error hd _, congrArg State.refuse hs⟩
    | ok i =>
      have hi : i ≠ .rdreg h.addr := fun e => hread (by rw [he, ← e, encodeInvertsDecode w i hd])
      exact ⟨_, _, (runCommand_of_ok hd _).trans (exec_eq_answer i _),
        (runCommand_of_ok hd _).trans (exec_eq_answer i _), answer_hide hi _⟩

/-- Two states that agree up to the element step to two such states. -/
theorem step_congr_hide {h : Hidden} {s s' t : State} (e : s'.hide h = s.hide h)
    (hread : nextEvent s.pins ≠ .command (encode (.rdreg h.addr))) (hstep : step s = .next t) :
    ∃ t', step s' = .next t' ∧ t'.hide h = t.hide h := by
  have hpins : s'.pins = s.pins :=
    calc
      s'.pins = (s'.hide h).pins := rfl
      _ = (s.hide h).pins := by rw [e]
  obtain ⟨u, v, hu, hv, huv⟩ := step_hide hread
  obtain ⟨u', v', hu', hv', huv'⟩ := step_hide (s := s') (h := h) (by rwa [hpins])
  rw [e, hv] at hv'
  rw [hstep] at hu
  cases hu
  cases hv'
  exact ⟨u', hu', huv'.symm.trans huv⟩

/-! ### The statements -/

/-- Settles O57: the two states hide to the same state, and what they lead to does. -/
theorem unitsFlagIsNeverRead : Obligations.UnitsFlagIsNeverRead := by
  intro s t u hstep hread
  obtain ⟨t', ht', e⟩ :=
    step_congr_hide (h := .units) (s := s) (s' := { s with set := { s.set with units := u } }) rfl hread hstep
  refine ⟨t'.set.units, ht'.trans (congrArg Host.Outcome.next ?_)⟩
  exact congrArg (fun x : State => { x with set := { x.set with units := t'.set.units } }) e

/-- Settles O58: the two states hide to the same state, and what they lead to does. -/
theorem previousStatusIsNeverRead : Obligations.PreviousStatusIsNeverRead := by
  intro s t q hstep hread
  obtain ⟨t', ht', e⟩ :=
    step_congr_hide (h := .previousStatus) (s := s) (s' := { s with rc := { s.rc with previousStatus := q } })
      rfl hread hstep
  refine ⟨t'.rc.previousStatus, ht'.trans (congrArg Host.Outcome.next ?_)⟩
  exact congrArg (fun x : State => { x with rc := { x.rc with previousStatus := t'.rc.previousStatus } }) e

end Sys2Proof.Machine
